-- ==== Sys2Proof/Word.lean ====
section
/-! DEFINITION. The byte, the request argument and the two byte sequences of the wire protocol: the body (bytes
0 to 7) and the frame (the body and its checksum byte). spec/00_scope.md R6 and R9, spec/90_conflicts.md C7. -/

namespace Sys2Proof

/-- A byte, an unsigned value 0 to 255 (00_scope.md R6). -/
abbrev Byte := BitVec 8

/-- The request argument `REQ_ARG`, as the unsigned number it is (30_encoding.md R60, 00_scope.md R6). Its width `ARG_W` is
a parameter of the machine (`Config.argW`, 00_scope.md R4), so an argument of every width has this one type, and the
places that take it in cut it to `ARG_W` bits: log 11. -/
abbrev Arg := Nat

/-- The request word of format `REQ`, the number that its `3 + ARG_W` bits are (30_encoding.md R60; log 11). -/
abbrev ReqWord := Nat

/-- Bytes 0 to 7 of a frame: the operand of the checksum (00_scope.md R9, 40_frame_codec.md R80). -/
structure Body where
  b0 : Byte
  b1 : Byte
  b2 : Byte
  b3 : Byte
  b4 : Byte
  b5 : Byte
  b6 : Byte
  b7 : Byte
deriving DecidableEq, Repr, Inhabited

/-- A frame: nine bytes, the body and the checksum byte `b8`; `b0` is the first byte written to or read from the
transport (00_scope.md R6, 30_encoding.md R67). -/
structure Frame extends Body where
  b8 : Byte
deriving DecidableEq, Repr, Inhabited

end Sys2Proof
end

