-- ==== Sys2Proof/Syntax.lean ====
section
/-! DEFINITION. The instructions, one constructor per row of spec/opcode_table.json, and the enumerations that
requests and completions use. -/

namespace Sys2Proof

/-- The operation code of a request, `REQ_OP` and `CMD_OP`, in the order of its codes 0 to 7 (30_encoding.md R61).
Codes 0 and 1 are the connection requests, 2 to 6 the sensor commands, 7 is reserved. -/
inductive Op where
  | connect
  | close
  | readCo2
  | zeroCal
  | spanCal
  | setAbc
  | setRange
  | reserved7
deriving DecidableEq, Repr, Inhabited

/-- The completion statuses, in the order of their codes 0 to 9 (60_exceptions.md R140). Codes 10 to 15 are never
produced and have no constructor (93_implementation_defined.md U8). -/
inductive Status where
  | ok
  | invalidHeader
  | checksumMismatch
  | incompleteResponse
  | partialWrite
  | readFailed
  | invalidArgument
  | notConnected
  | connectionError
  | transportError
deriving DecidableEq, Repr, Inhabited

/-- A parsed reply: echoed command byte, concentration or status, remaining data bytes, checksum byte
(10_state.md R18, 30_encoding.md R63). -/
structure Response where
  echo : Byte
  conc : BitVec 16
  rem  : BitVec 32
  chk  : Byte
deriving DecidableEq, Repr, Inhabited

/-- The instructions: the eight request words of format `REQ` with their whole argument, the five command frames of
format `CMD9` and the reply frame of format `RSP9`, each frame with every field its encoding leaves free.
A frame's `chk` is its byte 8. -/
inductive Instr where
  /-- `CONNECT`, 42_operations.md R125. -/
  | connect (arg : Arg)
  /-- `CLOSE`, 42_operations.md R126. -/
  | close (arg : Arg)
  /-- `READ_CO2`, 42_operations.md R120. -/
  | readCo2 (arg : Arg)
  /-- `ZERO_CAL`, 42_operations.md R121. -/
  | zeroCal (arg : Arg)
  /-- `SPAN_CAL`, 42_operations.md R122. -/
  | spanCal (arg : Arg)
  /-- `SET_ABC`, 42_operations.md R123. -/
  | setAbc (arg : Arg)
  /-- `SET_RANGE`, 42_operations.md R124. -/
  | setRange (arg : Arg)
  /-- `RESERVED7`, 42_operations.md R127. -/
  | reserved7 (arg : Arg)
  /-- `FRAME_READ_CO2`, 40_frame_codec.md R83. -/
  | frameReadCo2 (chk : Byte)
  /-- `FRAME_ZERO_CAL`, 40_frame_codec.md R84. -/
  | frameZeroCal (chk : Byte)
  /-- `FRAME_SPAN_CAL`, 40_frame_codec.md R85. -/
  | frameSpanCal (ppm : BitVec 16) (chk : Byte)
  /-- `FRAME_SET_ABC`, 40_frame_codec.md R86. -/
  | frameSetAbc (enabled : Bool) (chk : Byte)
  /-- `FRAME_SET_RANGE`, 40_frame_codec.md R87. -/
  | frameSetRange (range : BitVec 16) (chk : Byte)
  /-- `FRAME_RESPONSE`, 40_frame_codec.md R89. -/
  | frameResponse (echo : Byte) (conc : BitVec 16) (rem : BitVec 32) (chk : Byte)
deriving DecidableEq, Repr

end Sys2Proof
end

