-- ==== Sys2Proof/Config.lean ====
section
/-! DEFINITION. What an implementation fixes (the parameters of 00_scope.md R4 that a rule reads) and the free
values of the model. -/

namespace Sys2Proof

/-- The parameters a rule reads (00_scope.md R4): `ARG_W`, the width of the request argument (92_eei_decisions.md D4),
`RANGE_SET`, a finite set of values 0 to 65535 (D18), and `REOPEN_ALLOWED` (D14). They stand in State, no step changes
them, and a claim over all states holds for every choice of them: log 10. -/
structure Config where
  argW          : Nat
  rangeSet      : List (BitVec 16)
  reopenAllowed : Bool
deriving DecidableEq, Repr, Inhabited

/-- The default parameters of 00_scope.md R4. -/
def Config.standard : Config where
  argW          := 32
  rangeSet      := [1000, 2000, 3000, 5000, 10000]
  reopenAllowed := false

/-- The widths `ARG_W` that the spec calls legal (00_scope.md R4): 17 is the least in which a value that is not
representable in 16 bits can be presented (92_eei_decisions.md D4). No step reads this: log 11. -/
abbrev Config.Legal (cfg : Config) : Prop := 17 ≤ cfg.argW

/-- The registers that a reset leaves unspecified (10_state.md R25, 93_implementation_defined.md U2). -/
structure Unspecified where
  cmdOp       : Op
  cmdArg      : Arg
  txbuf       : Frame
  rxbuf       : Frame
  rxlen       : Fin 10
  resStatus   : Status
  resAttempts : BitVec 2
  resRspValid : Bool
  resPpmValid : Bool
  resEcho     : Byte
  resConc     : BitVec 16
  resRem      : BitVec 32
  resChk      : Byte
deriving DecidableEq, Repr, Inhabited

/-- FREE VALUE: what the registers that R25 leaves unspecified hold after the n-th `RST`. It has no body, so nothing
can be proved about it: log 6. -/
opaque Config.afterReset : Nat → Unspecified

end Sys2Proof
end

