-- ==== Sys2Proof/Machine/Operands.lean ====
section
/-! DEFINITION. The operand forms: how a value is cut into bytes and put together again, and how each operation takes
its operand from the request argument (30_encoding.md R64, 20_memory.md R42). They are stated for an argument
of any width; the width in force is `Config.argW`. -/

namespace Sys2Proof.Machine

/-- `v[15:8]`, the high byte of a 16-bit value (00_scope.md R6). -/
def hi8 {n : Nat} (v : BitVec n) : Byte := v.extractLsb' 8 8

/-- `v[7:0]`, the low byte (00_scope.md R6). -/
def lo8 {n : Nat} (v : BitVec n) : Byte := v.extractLsb' 0 8

/-- `be16(hi, lo) = hi*256 + lo` (00_scope.md R6, 40_frame_codec.md R90). -/
def be16 (hi lo : Byte) : BitVec 16 := hi ++ lo

/-- `{a, b, c, d}`, `a` most significant: the packing of `RES_REM` (20_memory.md R41, 30_encoding.md R64). -/
def be32 (a b c d : Byte) : BitVec 32 := a ++ b ++ c ++ d

/-- An argument on `ARG_W` wires: the bits of `REQ_ARG` and of `CMD_ARG` (30_encoding.md R60, 10_state.md R14). -/
def argBits (argW : Nat) (arg : Arg) : BitVec argW := BitVec.ofNat argW arg

/-- `enabled = REQ_ARG[0]`; the bits above are ignored (30_encoding.md R64). -/
def operandEnabled {n : Nat} (arg : BitVec n) : Bool := arg.getLsbD 0

/-- `d0` of `SetABC`: `ABC_ON` = 0xA0 or `ABC_OFF` = 0x00 (00_scope.md R4, 40_frame_codec.md R86). -/
def abcByte (enabled : Bool) : Byte := if enabled then 0xA0 else 0x00

/-- The data bytes `d0`, `d1` of a sensor command (the table of 30_encoding.md R64). The codes that build no frame
have none and give zeros, which nothing reads. -/
def dataBytes {n : Nat} (op : Op) (arg : BitVec n) : Byte × Byte :=
  match op with
  | .spanCal => (hi8 arg, lo8 arg)
  | .setAbc => (abcByte (operandEnabled arg), 0x00)
  | .setRange => (hi8 arg, lo8 arg)
  | .readCo2 => (0x00, 0x00)
  | .zeroCal => (0x00, 0x00)
  | .connect => (0x00, 0x00)
  | .close => (0x00, 0x00)
  | .reserved7 => (0x00, 0x00)

/-- `arg_ok(op, arg)` (40_frame_codec.md R88): the whole unsigned argument is compared, no upper bit is dropped. -/
def argOk {n : Nat} (cfg : Config) (op : Op) (arg : BitVec n) : Bool :=
  match op with
  | .spanCal => decide (arg.toNat ≤ 65535)
  | .setRange => cfg.rangeSet.any fun r => r.toNat == arg.toNat
  | .readCo2 => true
  | .zeroCal => true
  | .setAbc => true
  | .connect => true
  | .close => true
  | .reserved7 => true

/-- The sensor commands are codes 2 to 6 (30_encoding.md R61). -/
def isSensor (op : Op) : Bool :=
  match op with
  | .readCo2 => true
  | .zeroCal => true
  | .spanCal => true
  | .setAbc => true
  | .setRange => true
  | .connect => false
  | .close => false
  | .reserved7 => false

end Sys2Proof.Machine
end

