-- ==== Sys2Proof/Machine/Codec.lean ====
section
/-! DEFINITION. The Frame Codec (40_frame_codec.md): the checksum, the builder of the five command frames and the
parser of a reply. All pure: R93. -/

namespace Sys2Proof.Machine

/-- Byte 0 of every frame, in both directions: `HEADER` (00_scope.md R4). -/
abbrev header : Byte := 0xFF

/-- Byte 1 of every command frame: `ADDR`, a constant (00_scope.md R4, 92_eei_decisions.md D24). -/
abbrev addr : Byte := 0x01

/-- The wire opcode, byte 2 of a command frame; the codes that build no frame have none (30_encoding.md R65). -/
def wireOpcode (op : Op) : Option Byte :=
  match op with
  | .readCo2 => some 0x86
  | .zeroCal => some 0x87
  | .spanCal => some 0x88
  | .setAbc => some 0x79
  | .setRange => some 0x99
  | .connect => none
  | .close => none
  | .reserved7 => none

/-- The frame of nine bytes in index order, byte 0 first (00_scope.md R6). -/
def bytes9 (b0 b1 b2 b3 b4 b5 b6 b7 b8 : Byte) : Frame :=
  { b0 := b0, b1 := b1, b2 := b2, b3 := b3, b4 := b4, b5 := b5, b6 := b6, b7 := b7, b8 := b8 }

/-- The sum of bytes 1 to 7 of a body, an unbounded natural (40_frame_codec.md R80; byte 0 is not summed,
90_conflicts.md C5). -/
def bodySum (b : Body) : Nat :=
  b.b1.toNat + b.b2.toNat + b.b3.toNat + b.b4.toNat + b.b5.toNat + b.b6.toNat + b.b7.toNat

/-- `checksum(b)`: `((0xFF - (sum & 0xFF)) + 1) & 0xFF` (40_frame_codec.md R80), the additive inverse of the sum
modulo 256 (R81). -/
def checksum (b : Body) : Byte :=
  BitVec.ofNat 8 (((0xFF - (bodySum b &&& 0xFF)) + 1) &&& 0xFF)

/-- The body followed by its computed checksum (40_frame_codec.md R82: `f = body ++ [checksum(body)]`). -/
def sealBody (b : Body) : Frame := { toBody := b, b8 := checksum b }

/-- `[0xFF, 0x01, opcode, d0, d1, 0x00, 0x00, 0x00]` (40_frame_codec.md R82). -/
def commandBody (opcode d0 d1 : Byte) : Body :=
  { b0 := header, b1 := addr, b2 := opcode, b3 := d0, b4 := d1, b5 := 0x00, b6 := 0x00, b7 := 0x00 }

/-- The checksum byte a command frame must carry (40_frame_codec.md R82). -/
def commandChk (opcode d0 d1 : Byte) : Byte := checksum (commandBody opcode d0 d1)

/-- `build(op, arg)` (40_frame_codec.md R82 to R87); `none` is `InvalidArgument`, returned before any byte is built.
It is never called with a code that is no sensor command (R82), and builds nothing for one. -/
def build {n : Nat} (cfg : Config) (op : Op) (arg : BitVec n) : Option Frame :=
  match wireOpcode op with
  | none => none
  | some opcode =>
    if argOk cfg op arg then
      some (sealBody (commandBody opcode (dataBytes op arg).1 (dataBytes op arg).2))
    else none

/-- `build(CMD_OP, CMD_ARG)` at the width in force (40_frame_codec.md R82, 41_transaction_engine.md R102). -/
def buildRequest (cfg : Config) (op : Op) (arg : Arg) : Option Frame := build cfg op (argBits cfg.argW arg)

/-- What `parse` can fail with (40_frame_codec.md R89). -/
inductive ParseError where
  | incompleteResponse
  | invalidHeader
  | checksumMismatch
deriving DecidableEq, Repr

/-- The completion status that reports a parse error, unchanged (41_transaction_engine.md R105). -/
def parseStatus (e : ParseError) : Status :=
  match e with
  | .incompleteResponse => .incompleteResponse
  | .invalidHeader => .invalidHeader
  | .checksumMismatch => .checksumMismatch

/-- The fields of a reply (40_frame_codec.md R89, R90): the same for every `echo`. -/
def responseOf (r : Frame) : Response :=
  { echo := r.b1, conc := be16 r.b2 r.b3, rem := be32 r.b4 r.b5 r.b6 r.b7, chk := r.b8 }

/-- The body of the reply frame with these fields (30_encoding.md R63). -/
def replyBody (echo : Byte) (conc : BitVec 16) (rem : BitVec 32) : Body :=
  { b0 := header, b1 := echo, b2 := hi8 conc, b3 := lo8 conc,
    b4 := rem.extractLsb' 24 8, b5 := rem.extractLsb' 16 8, b6 := rem.extractLsb' 8 8, b7 := rem.extractLsb' 0 8 }

/-- `parse(len, r)`: length, then header, then checksum, in this order and nothing else (40_frame_codec.md R89,
R91; the order is 92_eei_decisions.md D11). `len` is typed 0 to 9 (93_implementation_defined.md U6). -/
def parse (len : Fin 10) (r : Frame) : Except ParseError Response :=
  if len.val < 9 then .error .incompleteResponse
  else if r.b0 ≠ header then .error .invalidHeader
  else if checksum r.toBody ≠ r.b8 then .error .checksumMismatch
  else .ok (responseOf r)

/-- `valid9(f)` (40_frame_codec.md R92). -/
def valid9 (f : Frame) : Bool := f.b0 == header && f.b8 == checksum f.toBody

end Sys2Proof.Machine
end

