-- ==== Sys2Proof/Machine/State.lean ====
section
/-! DEFINITION. The machine's state: the seventeen registers of 10_state.md R10, the ports a step reads and drives,
and the parameters. Plain data. -/

namespace Sys2Proof.Machine

/-- `CONN`, three values (10_state.md R11, 93_implementation_defined.md U8). -/
inductive Conn where
  | unopened
  | opened
  | closed
deriving DecidableEq, Repr, Inhabited

/-- `PHASE`, six values (10_state.md R12, 93_implementation_defined.md U8). -/
inductive Phase where
  | idle
  | dispatch
  | openWait
  | writeWait
  | readWait
  | parse
deriving DecidableEq, Repr, Inhabited

/-- A reply on channel `T_WRITE`: `Count` with 0 to 9 bytes, or `Error`, whose count field carries nothing
(20_memory.md R44). -/
inductive WriteReply where
  | count (n : Fin 10)
  | error (n : BitVec 4)
deriving DecidableEq, Repr, Inhabited

/-- A reply on channel `T_READ`: `Data` with 0 to 9 bytes, of which only the first `len` carry anything, `Timeout` or
`Error`, whose other fields the block discards (20_memory.md R45). -/
inductive ReadReply where
  | data (len : Fin 10) (bytes : Frame)
  | timeout (len : BitVec 4) (bytes : Frame)
  | error (len : BitVec 4) (bytes : Frame)
deriving DecidableEq, Repr, Inhabited

/-- A call the block issues to the transport (20_memory.md R44 to R47, 30_encoding.md R69). `tRead` always asks for
nine bytes (R45, R48). -/
inductive Call where
  | tOpen
  | tClose
  | tWrite (f : Frame)
  | tRead
deriving DecidableEq, Repr, Inhabited

/-- The completion record `CPL` (30_encoding.md R68). `rsp` is absent where the record's Response fields hold no
value (10_state.md R18, 93_implementation_defined.md U1). -/
structure Completion where
  status   : Status
  attempts : BitVec 2
  rspValid : Bool
  ppmValid : Bool
  rsp      : Option Response
deriving DecidableEq, Repr, Inhabited

/-- The state. The first seventeen fields are the registers of 10_state.md R10 in its order (`CMD_ARG` as the number that
its `ARG_W` bits are: log 11); then the parameters of 00_scope.md R4; then
the ports (log 7, log 8); then the model's own index of the free values (log 6). -/
structure State where
  conn         : Conn
  phase        : Phase
  attempt      : BitVec 2
  cmdOp        : Op
  cmdArg       : Arg
  txbuf        : Frame
  rxbuf        : Frame
  rxlen        : Fin 10
  resValid     : Bool
  resStatus    : Status
  resAttempts  : BitVec 2
  resRspValid  : Bool
  resPpmValid  : Bool
  resEcho      : Byte
  resConc      : BitVec 16
  resRem       : BitVec 32
  resChk       : Byte
  cfg          : Config
  rst          : Bool
  requests     : List ReqWord
  openReplies  : List Bool
  writeReplies : List WriteReply
  readReplies  : List ReadReply
  calls        : List Call
  completions  : List Completion
  resets       : Nat
deriving DecidableEq, Repr

/-- The reasons the model stops with a fault. There is none, and so the type has no constructor: every error of the
block is a completion, after which it goes on (60_exceptions.md R152), and no read of a register stops anything. -/
inductive Fault where
deriving DecidableEq, Repr

/-- The reasons the model refuses an input. No step of the block raises one. -/
inductive Refusal where
  /-- Raised by `exec` for an instruction that has no meaning yet; no instruction is left so. Safe. -/
  | notModelled (mnemonic : String)
  /-- Raised by the transport's reply port (`answerWrite`) for a `TWrite` reply of kind `Count` with count 10 to 15:
  reserved (20_memory.md R44, 93_implementation_defined.md U6). Safe. -/
  | reservedWriteReply
  /-- Raised by the transport's reply port (`answerRead`) for a `TRead` reply of kind 3, or of kind `Data` with len 10
  to 15: reserved (20_memory.md R45, 93_implementation_defined.md U5, U6). Safe. -/
  | reservedReadReply
deriving DecidableEq, Repr

/-- Nine zero bytes: the model's value of an unwritten buffer at power-on (log 5). -/
def zeroFrame : Frame :=
  { b0 := 0, b1 := 0, b2 := 0, b3 := 0, b4 := 0, b5 := 0, b6 := 0, b7 := 0, b8 := 0 }

/-- The machine right after reset (10_state.md R25): `CONN` = `Unopened`, `PHASE` = `IDLE`, `ATTEMPT` = 0,
`RES_VALID` = 0. DESIGN CHOICE (unsafe), log 5: the registers R25 leaves unspecified are zero. No input has
arrived and nothing has been issued. -/
def State.reset : State where
  conn         := .unopened
  phase        := .idle
  attempt      := 0
  cmdOp        := .connect
  cmdArg       := 0
  txbuf        := zeroFrame
  rxbuf        := zeroFrame
  rxlen        := 0
  resValid     := false
  resStatus    := .ok
  resAttempts  := 0
  resRspValid  := false
  resPpmValid  := false
  resEcho      := 0
  resConc      := 0
  resRem       := 0
  resChk       := 0
  cfg          := Config.standard
  rst          := false
  requests     := []
  openReplies  := []
  writeReplies := []
  readReplies  := []
  calls        := []
  completions  := []
  resets       := 0

end Sys2Proof.Machine
end

