-- ==== Sys2Proof/Machine/Flags.lean ====
section
/-! DEFINITION. The status flags and the derived outputs (10_state.md R20), and the codes of the enumerations. -/

namespace Sys2Proof.Machine

/-- `RES_RSP_VALID` at a completion: the status is `OK` and the request was a sensor command
(10_state.md R20, 41_transaction_engine.md R106). -/
def rspValidAfter (st : Status) (op : Op) : Bool := st == .ok && isSensor op

/-- `RES_PPM_VALID` at a completion: the status is `OK` and the request was `READ_CO2`
(10_state.md R20, 41_transaction_engine.md R106). -/
def ppmValidAfter (st : Status) (op : Op) : Bool := st == .ok && op == .readCo2

/-- Output `BUSY`: `PHASE != IDLE` (10_state.md R20). -/
def busy (s : State) : Bool := s.phase != .idle

/-- Output `REQ_READY`: `PHASE = IDLE` (10_state.md R20). -/
def reqReady (s : State) : Bool := s.phase == .idle

/-- The code of a status (60_exceptions.md R140). -/
def statusCode (st : Status) : BitVec 4 :=
  match st with
  | .ok => 0
  | .invalidHeader => 1
  | .checksumMismatch => 2
  | .incompleteResponse => 3
  | .partialWrite => 4
  | .readFailed => 5
  | .invalidArgument => 6
  | .notConnected => 7
  | .connectionError => 8
  | .transportError => 9

/-- The two error families (60_exceptions.md R150). -/
inductive Family where
  | argument
  | protocol
deriving DecidableEq, Repr

/-- The family of a status: `argument` for code 6, `protocol` for the other error codes, none for `OK`
(60_exceptions.md R150). -/
def statusFamily (st : Status) : Option Family :=
  match st with
  | .ok => none
  | .invalidArgument => some .argument
  | .invalidHeader => some .protocol
  | .checksumMismatch => some .protocol
  | .incompleteResponse => some .protocol
  | .partialWrite => some .protocol
  | .readFailed => some .protocol
  | .notConnected => some .protocol
  | .connectionError => some .protocol
  | .transportError => some .protocol

/-- The code of `CONN` (10_state.md R11). -/
def connCode (c : Conn) : BitVec 2 :=
  match c with
  | .unopened => 0
  | .opened => 1
  | .closed => 2

/-- The code of `PHASE` (10_state.md R12). -/
def phaseCode (p : Phase) : BitVec 3 :=
  match p with
  | .idle => 0
  | .dispatch => 1
  | .openWait => 2
  | .writeWait => 3
  | .readWait => 4
  | .parse => 5

/-- The top byte of a completion word: `{status, attempts, rsp_valid, ppm_valid}` (30_encoding.md R68). -/
def completionTop (c : Completion) : Byte :=
  statusCode c.status ++ c.attempts ++ BitVec.ofBool c.rspValid ++ BitVec.ofBool c.ppmValid

/-- The completion as one 72-bit word `{status, attempts, rsp_valid, ppm_valid, echo, conc, rem, chk}`
(30_encoding.md R68); it has none where the Response fields hold no value. -/
def completionBits (c : Completion) : Option (BitVec 72) :=
  c.rsp.map fun r => completionTop c ++ r.echo ++ r.conc ++ r.rem ++ r.chk

end Sys2Proof.Machine
end

