-- ==== Sys2Proof/Machine/Ops.lean ====
section
/-! DEFINITION. The named operations over the registers and the ports, and the steps that every request shares:
`ACCEPT` (41_transaction_engine.md R101), the end of a request (R106), `WRITE_DONE` (R103), `READ_DONE` (R104),
`PARSE` (R105), the `OPEN_WAIT` step (42_operations.md R125) and the step that takes `RST`
(70_reset_and_hazards.md R170 to R172). -/

namespace Sys2Proof.Machine

/-- Issue a call on its transport channel (00_scope.md R7, 30_encoding.md R69). -/
def issue (c : Call) (s : State) : State := { s with calls := s.calls ++ [c] }

/-- The completion record of a request that ends now with this status, in the registers as they then stand
(30_encoding.md R68). -/
def recordOf (s : State) : Completion where
  status   := s.resStatus
  attempts := s.resAttempts
  rspValid := s.resRspValid
  ppmValid := s.resPpmValid
  rsp      :=
    if s.resRspValid then some { echo := s.resEcho, conc := s.resConc, rem := s.resRem, chk := s.resChk } else none

/-- A Response register at a completion: written only when the status is `OK` and a Response is given, otherwise left
as it was (41_transaction_engine.md R106, 90_conflicts.md C9). -/
def responseField {α : Type} (st : Status) (r : Option Response) (new : Response → α) (old : α) : α :=
  match st, r with
  | .ok, some r => new r
  | _, _ => old

/-- Emit the completion record on the completion port (41_transaction_engine.md R106). -/
def emit (s : State) : State := { s with completions := s.completions ++ [recordOf s] }

/-- The register writes of `complete` (41_transaction_engine.md R106). -/
def finish (st : Status) (r : Option Response) (s : State) : State :=
  { s with
    resStatus   := st
    resAttempts := s.attempt
    resRspValid := rspValidAfter st s.cmdOp
    resPpmValid := ppmValidAfter st s.cmdOp
    resEcho     := responseField st r (fun x => x.echo) s.resEcho
    resConc     := responseField st r (fun x => x.conc) s.resConc
    resRem      := responseField st r (fun x => x.rem) s.resRem
    resChk      := responseField st r (fun x => x.chk) s.resChk
    resValid    := true
    phase       := .idle }

/-- `complete(status [, r])`: the end of every request, in the same step as its caller (41_transaction_engine.md
R106). -/
def complete (st : Status) (r : Option Response) (s : State) : State := emit (finish st r s)

/-- TAKING AN EXCEPTION: an error completion (60_exceptions.md R152). It writes the result registers, returns to
`IDLE` and emits the record; it saves nothing else and changes no mode. There is no return from it (R154): the
next request is simply accepted. -/
def raise (st : Status) (s : State) : State := complete st none s

/-- Step `ACCEPT` (41_transaction_engine.md R101): the request leaves the port and is latched, its
argument in the `ARG_W` bits of `CMD_ARG`. -/
def accept (op : Op) (arg : Arg) (s : State) : State :=
  { s with
    cmdOp    := op
    cmdArg   := (argBits s.cfg.argW arg).toNat
    attempt  := 0
    resValid := false
    phase    := .dispatch
    requests := s.requests.tail }

/-- Issue `TOpen` and wait (42_operations.md R125). -/
def startOpen (s : State) : State := { issue .tOpen s with phase := .openWait }

/-- The frame into `TXBUF`, one `TWrite` of it, and wait (41_transaction_engine.md R102). -/
def transmit (f : Frame) (s : State) : State := { issue (.tWrite f) s with txbuf := f, phase := .writeWait }

/-- Attempt number `a`: one `TRead(9)`, and wait (41_transaction_engine.md R103, R104). -/
def startRead (a : BitVec 2) (s : State) : State := { issue .tRead s with attempt := a, phase := .readWait }

/-- Nine reply bytes into `RXBUF` (41_transaction_engine.md R104). -/
def storeReply (f : Frame) (s : State) : State := { s with rxbuf := f, rxlen := 9, phase := .parse }

/-- The step on a `TOpen` reply (42_operations.md R125). -/
def onOpenReply (ready : Bool) (s : State) : State :=
  if ready then complete .ok none { s with conn := .opened } else raise .connectionError s

/-- Step `WRITE_DONE` on a `TWrite` reply (41_transaction_engine.md R103). -/
def onWriteReply (r : WriteReply) (s : State) : State :=
  match r with
  | .error _ => raise .transportError s
  | .count n => if n.val < 9 then raise .partialWrite s else startRead 1 s

/-- Step `READ_DONE` on a `TRead` reply (41_transaction_engine.md R104): only `Timeout` is retried, at most three
reads in all (R107). -/
def onReadReply (r : ReadReply) (s : State) : State :=
  match r with
  | .timeout _ _ => if s.attempt.toNat < 3 then startRead (s.attempt + 1) s else raise .readFailed s
  | .error _ _ => raise .transportError s
  | .data len f => if len.val < 9 then raise .incompleteResponse s else storeReply f s

/-- Step `PARSE` on given reply bytes (41_transaction_engine.md R105): the codec's errors unchanged. -/
def judge (len : Fin 10) (f : Frame) (s : State) : State :=
  match parse len f with
  | .ok r => complete .ok (some r) s
  | .error e => raise (parseStatus e) s

/-- Take the waiting `TOpen` reply off its channel. -/
def popOpen (s : State) : State := { s with openReplies := s.openReplies.tail }

/-- Take the waiting `TWrite` reply off its channel. -/
def popWrite (s : State) : State := { s with writeReplies := s.writeReplies.tail }

/-- Take the waiting `TRead` reply off its channel. -/
def popRead (s : State) : State := { s with readReplies := s.readReplies.tail }

/-- `OPEN_WAIT`: the reply's step, or, with no reply, waiting with all state kept (42_operations.md R125,
70_reset_and_hazards.md R181; log 9). -/
def openDone (s : State) : State :=
  match s.openReplies with
  | [] => s
  | ready :: _ => onOpenReply ready (popOpen s)

/-- `WRITE_WAIT`: likewise (41_transaction_engine.md R103, 70_reset_and_hazards.md R181; log 9). -/
def writeDone (s : State) : State :=
  match s.writeReplies with
  | [] => s
  | r :: _ => onWriteReply r (popWrite s)

/-- `READ_WAIT`: likewise (41_transaction_engine.md R104, 70_reset_and_hazards.md R181; log 9). -/
def readDone (s : State) : State :=
  match s.readReplies with
  | [] => s
  | r :: _ => onReadReply r (popRead s)

/-- `PARSE` on the reply buffer (41_transaction_engine.md R105). -/
def parseDone (s : State) : State := judge s.rxlen s.rxbuf s

/-- The step of a request, by `PHASE`: exactly one rule applies in each (41_transaction_engine.md R100). Only the
`DISPATCH` arm differs between requests. -/
def requestStep (op : Op) (arg : Arg) (dispatch : State → State) (s : State) : State :=
  match s.phase with
  | .idle => accept op arg s
  | .dispatch => dispatch s
  | .openWait => openDone s
  | .writeWait => writeDone s
  | .readWait => readDone s
  | .parse => parseDone s

/-- The registers that R25 leaves unspecified take free values (log 6). -/
def scramble (u : Unspecified) (s : State) : State :=
  { s with
    cmdOp       := u.cmdOp
    cmdArg      := (argBits s.cfg.argW u.cmdArg).toNat
    txbuf       := u.txbuf
    rxbuf       := u.rxbuf
    rxlen       := u.rxlen
    resStatus   := u.resStatus
    resAttempts := u.resAttempts
    resRspValid := u.resRspValid
    resPpmValid := u.resPpmValid
    resEcho     := u.resEcho
    resConc     := u.resConc
    resRem      := u.resRem
    resChk      := u.resChk }

/-- The reply that answers the call outstanding now is dropped: the block will be in `IDLE` and consumes no reply there
(70_reset_and_hazards.md R172; log 7). -/
def dropOutstanding (s : State) : State :=
  { s with
    openReplies  := if s.phase = .openWait then s.openReplies.tail else s.openReplies
    writeReplies := if s.phase = .writeWait then s.writeReplies.tail else s.writeReplies
    readReplies  := if s.phase = .readWait then s.readReplies.tail else s.readReplies }

/-- The step that takes `RST` (70_reset_and_hazards.md R170 to R172): the four registers of 10_state.md R25, the rest
unspecified; no transport call, no completion. -/
def takeReset (s : State) : State :=
  { scramble (Config.afterReset s.resets) (dropOutstanding s) with
    conn     := .unopened
    phase    := .idle
    attempt  := 0
    resValid := false
    rst      := false
    resets   := s.resets + 1 }

end Sys2Proof.Machine
end

