-- ==== Sys2Proof/Machine/Connection.lean ====
section
/-! DEFINITION. The meanings of the connection requests and of the reserved request (42_operations.md R125 to R127,
R129). -/

namespace Sys2Proof.Machine

/-- The `DISPATCH` arm of `CONNECT` (42_operations.md R125). -/
def connectDispatch (s : State) : State :=
  match s.conn with
  | .unopened => startOpen s
  | .opened => complete .ok none s
  | .closed => if s.cfg.reopenAllowed then startOpen s else raise .connectionError s

/-- The `DISPATCH` arm of `CLOSE` (42_operations.md R126): it cannot fail. -/
def closeDispatch (s : State) : State :=
  match s.conn with
  | .opened => complete .ok none { issue .tClose s with conn := .closed }
  | .closed => complete .ok none s
  | .unopened => complete .ok none s

/-- The `DISPATCH` arm of the reserved request, whatever `CONN` is (42_operations.md R127). -/
def reservedDispatch (s : State) : State := raise .invalidArgument s

/-- `CONNECT` (42_operations.md R125). -/
def execConnect (arg : Arg) (s : State) : Host.Outcome State Fault Refusal :=
  .next (requestStep .connect arg connectDispatch s)

/-- `CLOSE` (42_operations.md R126). -/
def execClose (arg : Arg) (s : State) : Host.Outcome State Fault Refusal :=
  .next (requestStep .close arg closeDispatch s)

/-- `RESERVED7` (42_operations.md R127). -/
def execReserved7 (arg : Arg) (s : State) : Host.Outcome State Fault Refusal :=
  .next (requestStep .reserved7 arg reservedDispatch s)

end Sys2Proof.Machine
end

