-- ==== Sys2Proof/WellFormed.lean ====
section
/-! DEFINITION. Which instructions are well formed: a request is when its argument fits in `ARG_W` bits (the host may
present any code with any such argument, 70_reset_and_hazards.md R185); a frame is when it meets the constraint of its
row of spec/opcode_table.json: its checksum byte, and for `FRAME_SET_RANGE` membership in `RANGE_SET`. -/

namespace Sys2Proof

/-- The argument of a request fits in `REQ_ARG` (30_encoding.md R60). -/
def argFits (argW : Nat) (i : Instr) : Bool :=
  match i with
  | .connect arg => decide (arg < 2 ^ argW)
  | .close arg => decide (arg < 2 ^ argW)
  | .readCo2 arg => decide (arg < 2 ^ argW)
  | .zeroCal arg => decide (arg < 2 ^ argW)
  | .spanCal arg => decide (arg < 2 ^ argW)
  | .setAbc arg => decide (arg < 2 ^ argW)
  | .setRange arg => decide (arg < 2 ^ argW)
  | .reserved7 arg => decide (arg < 2 ^ argW)
  | .frameReadCo2 _ => true
  | .frameZeroCal _ => true
  | .frameSpanCal _ _ => true
  | .frameSetAbc _ _ => true
  | .frameSetRange _ _ => true
  | .frameResponse _ _ _ _ => true

/-- The constraint of the instruction's row of spec/opcode_table.json. -/
def rowConstraint (cfg : Config) (i : Instr) : Bool :=
  match i with
  | .connect _ => true
  | .close _ => true
  | .readCo2 _ => true
  | .zeroCal _ => true
  | .spanCal _ => true
  | .setAbc _ => true
  | .setRange _ => true
  | .reserved7 _ => true
  | .frameReadCo2 chk => chk == Machine.commandChk 0x86 0x00 0x00
  | .frameZeroCal chk => chk == Machine.commandChk 0x87 0x00 0x00
  | .frameSpanCal ppm chk => chk == Machine.commandChk 0x88 (Machine.hi8 ppm) (Machine.lo8 ppm)
  | .frameSetAbc enabled chk => chk == Machine.commandChk 0x79 (Machine.abcByte enabled) 0x00
  | .frameSetRange range chk =>
      cfg.rangeSet.contains range && chk == Machine.commandChk 0x99 (Machine.hi8 range) (Machine.lo8 range)
  | .frameResponse echo conc rem chk => chk == Machine.checksum (Machine.replyBody echo conc rem)

/-- A well-formed instruction: its operand fits and its row's constraint holds. -/
def wellFormed (cfg : Config) (i : Instr) : Bool := argFits cfg.argW i && rowConstraint cfg i

end Sys2Proof
end

