-- ==== Sys2Proof/Decode.lean ====
section
/-! DEFINITION. The encodings: request words (30_encoding.md R60, R61), frames as 72-bit values (00_scope.md R6,
30_encoding.md R62, R63), the decoders, and the encoder written from the same tables. -/

namespace Sys2Proof

/-- Why a word is no instruction. -/
inductive DecodeError where
  /-- Byte 0 is not 0xFF: no row of the table (30_encoding.md R62, R63). Safe. -/
  | badHeader
  /-- Byte 1 of a command frame is not 0x01 (30_encoding.md R66). Safe. -/
  | badAddr
  /-- Byte 2 of a command frame is none of the five opcodes (30_encoding.md R65). Safe. -/
  | unknownOpcode
  /-- A data byte of a command frame holds a value its row does not admit (30_encoding.md R64, R66). Safe. -/
  | badData
  /-- The word has bits above its format's width (30_encoding.md R60, R67). Safe. -/
  | tooWide
  /-- No format has this width (30_encoding.md R60, R67). Safe. -/
  | unknownWidth
deriving DecidableEq, Repr

/-- The code of an operation (30_encoding.md R61). -/
def opCode (op : Op) : BitVec 3 :=
  match op with
  | .connect => 0
  | .close => 1
  | .readCo2 => 2
  | .zeroCal => 3
  | .spanCal => 4
  | .setAbc => 5
  | .setRange => 6
  | .reserved7 => 7

/-- The operation of a code; every code has one (30_encoding.md R61). -/
def opOfCode (c : BitVec 3) : Op :=
  if c = 0 then .connect
  else if c = 1 then .close
  else if c = 2 then .readCo2
  else if c = 3 then .zeroCal
  else if c = 4 then .spanCal
  else if c = 5 then .setAbc
  else if c = 6 then .setRange
  else .reserved7

/-- The request word `{REQ_OP, REQ_ARG}` for an argument of any width (30_encoding.md R60). -/
def packRequest {n : Nat} (op : Op) (arg : BitVec n) : BitVec (3 + n) := opCode op ++ arg

/-- `REQ_OP`, bits `[ARG_W+2 : ARG_W]` (30_encoding.md R60). -/
def requestOp {n : Nat} (w : BitVec (3 + n)) : Op := opOfCode (w.extractLsb' n 3)

/-- `REQ_ARG`, bits `[ARG_W-1 : 0]` (30_encoding.md R60). -/
def requestArg {n : Nat} (w : BitVec (3 + n)) : BitVec n := w.extractLsb' 0 n

/-- The request instruction of an operation code and an argument. -/
def requestInstr (op : Op) (arg : Arg) : Instr :=
  match op with
  | .connect => .connect arg
  | .close => .close arg
  | .readCo2 => .readCo2 arg
  | .zeroCal => .zeroCal arg
  | .spanCal => .spanCal arg
  | .setAbc => .setAbc arg
  | .setRange => .setRange arg
  | .reserved7 => .reserved7 arg

/-- The request word of an operation and an argument on a port of `3 + ARG_W` bits (30_encoding.md R60). -/
def requestWord (argW : Nat) (op : Op) (arg : Arg) : ReqWord := (packRequest op (Machine.argBits argW arg)).toNat

/-- `REQ_OP` of a word on a port of `3 + ARG_W` bits (30_encoding.md R60). -/
def wordOp (argW : Nat) (w : ReqWord) : Op := requestOp (BitVec.ofNat (3 + argW) w)

/-- `REQ_ARG` of a word on a port of `3 + ARG_W` bits (30_encoding.md R60). -/
def wordArg (argW : Nat) (w : ReqWord) : Arg := (requestArg (BitVec.ofNat (3 + argW) w)).toNat

/-- What stands on a port of `3 + ARG_W` bits is a request, whatever the bits (30_encoding.md R61). -/
def decodeRequest (argW : Nat) (w : ReqWord) : Instr := requestInstr (wordOp argW w) (wordArg argW w)

/-- A frame as one 72-bit value, byte `i` in bits `[71-8*i : 64-8*i]` (00_scope.md R6). -/
def frameBits (f : Frame) : BitVec 72 :=
  f.b0 ++ f.b1 ++ f.b2 ++ f.b3 ++ f.b4 ++ f.b5 ++ f.b6 ++ f.b7 ++ f.b8

/-- The frame of a 72-bit value (00_scope.md R6). -/
def frameOfBits (w : BitVec 72) : Frame :=
  { b0 := w.extractLsb' 64 8, b1 := w.extractLsb' 56 8, b2 := w.extractLsb' 48 8, b3 := w.extractLsb' 40 8,
    b4 := w.extractLsb' 32 8, b5 := w.extractLsb' 24 8, b6 := w.extractLsb' 16 8, b7 := w.extractLsb' 8 8,
    b8 := w.extractLsb' 0 8 }

/-- The decoder of format `CMD9`: the rows `FRAME_READ_CO2` to `FRAME_SET_RANGE`, by mask and match
(30_encoding.md R62, R64, R65). The checksum byte is an operand here and `wellFormed` checks it: log 14. -/
def decodeCommand (f : Frame) : Except DecodeError Instr :=
  if f.b0 ≠ Machine.header then .error .badHeader
  else if f.b1 ≠ Machine.addr then .error .badAddr
  else if f.b5 ≠ 0x00 ∨ f.b6 ≠ 0x00 ∨ f.b7 ≠ 0x00 then .error .badData
  else if f.b2 = 0x86 then
    if f.b3 = 0x00 ∧ f.b4 = 0x00 then .ok (.frameReadCo2 f.b8) else .error .badData
  else if f.b2 = 0x87 then
    if f.b3 = 0x00 ∧ f.b4 = 0x00 then .ok (.frameZeroCal f.b8) else .error .badData
  else if f.b2 = 0x88 then .ok (.frameSpanCal (Machine.be16 f.b3 f.b4) f.b8)
  else if f.b2 = 0x79 then
    if f.b4 ≠ 0x00 then .error .badData
    else if f.b3 = 0xA0 then .ok (.frameSetAbc true f.b8)
    else if f.b3 = 0x00 then .ok (.frameSetAbc false f.b8)
    else .error .badData
  else if f.b2 = 0x99 then .ok (.frameSetRange (Machine.be16 f.b3 f.b4) f.b8)
  else .error .unknownOpcode

/-- The decoder of format `RSP9`: only the header is fixed (30_encoding.md R63). -/
def decodeReply (f : Frame) : Except DecodeError Instr :=
  if f.b0 ≠ Machine.header then .error .badHeader
  else .ok (.frameResponse f.b1 (Machine.be16 f.b2 f.b3) (Machine.be32 f.b4 f.b5 f.b6 f.b7) f.b8)

/-- An encoded instruction, tagged with its format: `REQ`, `CMD9` or `RSP9` (30_encoding.md R60, R62, R63). -/
inductive Encoded where
  | req (w : ReqWord)
  | cmd9 (f : Frame)
  | rsp9 (f : Frame)
deriving DecidableEq, Repr

/-- The decoder of all three formats, for a block with this `ARG_W`. -/
def decode (argW : Nat) (e : Encoded) : Except DecodeError Instr :=
  match e with
  | .req w => if w < 2 ^ (3 + argW) then .ok (decodeRequest argW w) else .error .tooWide
  | .cmd9 f => decodeCommand f
  | .rsp9 f => decodeReply f

/-- The encoder, row by row from spec/opcode_table.json, for a block with this `ARG_W`. -/
def encode (argW : Nat) (i : Instr) : Encoded :=
  match i with
  | .connect arg => .req (requestWord argW .connect arg)
  | .close arg => .req (requestWord argW .close arg)
  | .readCo2 arg => .req (requestWord argW .readCo2 arg)
  | .zeroCal arg => .req (requestWord argW .zeroCal arg)
  | .spanCal arg => .req (requestWord argW .spanCal arg)
  | .setAbc arg => .req (requestWord argW .setAbc arg)
  | .setRange arg => .req (requestWord argW .setRange arg)
  | .reserved7 arg => .req (requestWord argW .reserved7 arg)
  | .frameReadCo2 chk => .cmd9 { toBody := Machine.commandBody 0x86 0x00 0x00, b8 := chk }
  | .frameZeroCal chk => .cmd9 { toBody := Machine.commandBody 0x87 0x00 0x00, b8 := chk }
  | .frameSpanCal ppm chk =>
      .cmd9 { toBody := Machine.commandBody 0x88 (Machine.hi8 ppm) (Machine.lo8 ppm), b8 := chk }
  | .frameSetAbc enabled chk => .cmd9 { toBody := Machine.commandBody 0x79 (Machine.abcByte enabled) 0x00, b8 := chk }
  | .frameSetRange range chk =>
      .cmd9 { toBody := Machine.commandBody 0x99 (Machine.hi8 range) (Machine.lo8 range), b8 := chk }
  | .frameResponse echo conc rem chk => .rsp9 { toBody := Machine.replyBody echo conc rem, b8 := chk }

/-- The `ARG_W` of the words of spec/opcode_table.json: the default of 00_scope.md R4. -/
abbrev tableArgW : Nat := 32

/-- An encoded instruction as the number spec/opcode_table.json writes: its bits, and its width in whole bytes. -/
def encodedWord (e : Encoded) : Nat × Nat :=
  match e with
  | .req w => (40, w)
  | .cmd9 f => (72, (frameBits f).toNat)
  | .rsp9 f => (72, (frameBits f).toNat)

/-- The decoder of a table word by its width in whole bytes: up to 40 bits a request word, 72 bits a frame. A 72-bit
word that fits a command row is read as that row, any other with the header as a reply: log 3, log 4. -/
def decodeWord (nbits w : Nat) : Except DecodeError Instr :=
  if nbits ≤ 40 then
    decode tableArgW (.req w)
  else if nbits = 72 then
    if w < 2 ^ 72 then
      match decodeCommand (frameOfBits (BitVec.ofNat 72 w)) with
      | .ok i => .ok i
      | .error _ => decodeReply (frameOfBits (BitVec.ofNat 72 w))
    else .error .tooWide
  else .error .unknownWidth

/-- The instruction the decoder reads from a word of spec/opcode_table.json, numbered as the table numbers it. -/
def decodeTableWord (nbits w : Nat) : Option Instr :=
  match decodeWord nbits w with
  | .ok i => some i
  | .error _ => none

end Sys2Proof
end

