-- ==== Sys2Proof/Machine/Sensor.lean ====
section
/-! DEFINITION. The meanings of the five sensor commands (42_operations.md R120 to R124, R130). They differ in their
operation code: in the frame built, in the argument check, and in `RES_PPM_VALID`. -/

namespace Sys2Proof.Machine

/-- The `DISPATCH` arm of a sensor command (41_transaction_engine.md R102): the argument, then the connection, then
the frame. The order of the two checks is 92_eei_decisions.md D10: log 16. -/
def sensorDispatch {n : Nat} (op : Op) (arg : BitVec n) (s : State) : State :=
  match build s.cfg op arg with
  | none => raise .invalidArgument s
  | some f => if s.conn = .opened then transmit f s else raise .notConnected s

/-- `READ_CO2` (42_operations.md R120). -/
def execReadCo2 (arg : Arg) (s : State) : Host.Outcome State Fault Refusal :=
  .next (requestStep .readCo2 arg (sensorDispatch .readCo2 (argBits s.cfg.argW arg)) s)

/-- `ZERO_CAL` (42_operations.md R121). -/
def execZeroCal (arg : Arg) (s : State) : Host.Outcome State Fault Refusal :=
  .next (requestStep .zeroCal arg (sensorDispatch .zeroCal (argBits s.cfg.argW arg)) s)

/-- `SPAN_CAL` (42_operations.md R122). -/
def execSpanCal (arg : Arg) (s : State) : Host.Outcome State Fault Refusal :=
  .next (requestStep .spanCal arg (sensorDispatch .spanCal (argBits s.cfg.argW arg)) s)

/-- `SET_ABC` (42_operations.md R123). -/
def execSetAbc (arg : Arg) (s : State) : Host.Outcome State Fault Refusal :=
  .next (requestStep .setAbc arg (sensorDispatch .setAbc (argBits s.cfg.argW arg)) s)

/-- `SET_RANGE` (42_operations.md R124). -/
def execSetRange (arg : Arg) (s : State) : Host.Outcome State Fault Refusal :=
  .next (requestStep .setRange arg (sensorDispatch .setRange (argBits s.cfg.argW arg)) s)

end Sys2Proof.Machine
end

