-- ==== Sys2Proof/Machine/Frames.lean ====
section
/-! DEFINITION. The meanings of the frame rows (40_frame_codec.md R83 to R87, R89), by `PHASE`: log 15. -/

namespace Sys2Proof.Machine

/-- A command frame. In `DISPATCH` it is the frame being built: the codec's and the engine's checks, then it is handed
to the transport with its computed checksum (41_transaction_engine.md R102, 40_frame_codec.md R82). In
`WRITE_WAIT` it is the frame in flight: `WRITE_DONE` (R103). In no other phase does a command frame do anything
(40_frame_codec.md R93). -/
def commandFrameStep {n : Nat} (op : Op) (arg : BitVec n) (s : State) : State :=
  match s.phase with
  | .dispatch => sensorDispatch op arg s
  | .writeWait => writeDone s
  | .idle => s
  | .openWait => s
  | .readWait => s
  | .parse => s

/-- A reply frame. In `READ_WAIT` it is the `Data` reply of nine bytes that ends the read loop
(41_transaction_engine.md R104). In `PARSE` it is the frame in `RXBUF`, judged (R105). In no other phase is a
`TRead` outstanding, and a reply is dropped (70_reset_and_hazards.md R172). -/
def replyFrameStep (f : Frame) (s : State) : State :=
  match s.phase with
  | .readWait => storeReply f (popRead s)
  | .parse => judge 9 f s
  | .idle => s
  | .dispatch => s
  | .openWait => s
  | .writeWait => s

/-- `FRAME_READ_CO2` (40_frame_codec.md R83). -/
def execFrameReadCo2 (_chk : Byte) (s : State) : Host.Outcome State Fault Refusal :=
  .next (commandFrameStep .readCo2 (0 : BitVec 16) s)

/-- `FRAME_ZERO_CAL` (40_frame_codec.md R84). -/
def execFrameZeroCal (_chk : Byte) (s : State) : Host.Outcome State Fault Refusal :=
  .next (commandFrameStep .zeroCal (0 : BitVec 16) s)

/-- `FRAME_SPAN_CAL` (40_frame_codec.md R85). -/
def execFrameSpanCal (ppm : BitVec 16) (_chk : Byte) (s : State) : Host.Outcome State Fault Refusal :=
  .next (commandFrameStep .spanCal ppm s)

/-- `FRAME_SET_ABC` (40_frame_codec.md R86). -/
def execFrameSetAbc (enabled : Bool) (_chk : Byte) (s : State) : Host.Outcome State Fault Refusal :=
  .next (commandFrameStep .setAbc (BitVec.ofBool enabled) s)

/-- `FRAME_SET_RANGE` (40_frame_codec.md R87). -/
def execFrameSetRange (range : BitVec 16) (_chk : Byte) (s : State) : Host.Outcome State Fault Refusal :=
  .next (commandFrameStep .setRange range s)

/-- `FRAME_RESPONSE` (40_frame_codec.md R89). -/
def execFrameResponse (echo : Byte) (conc : BitVec 16) (rem : BitVec 32) (chk : Byte) (s : State) :
    Host.Outcome State Fault Refusal :=
  .next (replyFrameStep { toBody := replyBody echo conc rem, b8 := chk } s)

end Sys2Proof.Machine
end

