-- ==== Sys2Proof/Machine/Dispatch.lean ====
section
/-! DEFINITION. One arm per instruction, each one direct call of its meaning. -/

namespace Sys2Proof.Machine

-- The instruction's meaning at a state: the step it makes there.
def exec (i : Instr) (s : State) : Host.Outcome State Fault Refusal :=
  match i with
  | .connect arg => Sys2Proof.Machine.execConnect arg s
  | .close arg => Sys2Proof.Machine.execClose arg s
  | .readCo2 arg => Sys2Proof.Machine.execReadCo2 arg s
  | .zeroCal arg => Sys2Proof.Machine.execZeroCal arg s
  | .spanCal arg => Sys2Proof.Machine.execSpanCal arg s
  | .setAbc arg => Sys2Proof.Machine.execSetAbc arg s
  | .setRange arg => Sys2Proof.Machine.execSetRange arg s
  | .reserved7 arg => Sys2Proof.Machine.execReserved7 arg s
  | .frameReadCo2 chk => Sys2Proof.Machine.execFrameReadCo2 chk s
  | .frameZeroCal chk => Sys2Proof.Machine.execFrameZeroCal chk s
  | .frameSpanCal ppm chk => Sys2Proof.Machine.execFrameSpanCal ppm chk s
  | .frameSetAbc enabled chk => Sys2Proof.Machine.execFrameSetAbc enabled chk s
  | .frameSetRange range chk => Sys2Proof.Machine.execFrameSetRange range chk s
  | .frameResponse echo conc rem chk => Sys2Proof.Machine.execFrameResponse echo conc rem chk s

end Sys2Proof.Machine
end

