-- ==== Sys2Proof/Machine/Fetch.lean ====
section
/-! DEFINITION. Which instruction the next step runs, and how a word is placed so that the next step runs it:
log 1, log 2. -/

namespace Sys2Proof.Machine

/-- The request in progress, from `CMD_OP` and `CMD_ARG` (10_state.md R14). -/
def inProgress (s : State) : Instr := requestInstr s.cmdOp s.cmdArg

/-- What a frame decodes to, or the request in progress where it is no instruction. -/
def frameOr (d : Except DecodeError Instr) (s : State) : Instr :=
  match d with
  | .ok i => i
  | .error _ => inProgress s

/-- A reply that carries nine bytes is the reply frame it carries; any other is the request's own affair
(41_transaction_engine.md R104). -/
def replyInstr (r : ReadReply) (s : State) : Instr :=
  match r with
  | .data len f => if len = 9 then frameOr (decodeReply f) s else inProgress s
  | .timeout _ _ => inProgress s
  | .error _ _ => inProgress s

/-- The instruction that the next step runs; none where no step is enabled (41_transaction_engine.md R100): in
`IDLE` the word on the request port (20_memory.md R53); in `DISPATCH` and `OPEN_WAIT` the request in progress; in
`WRITE_WAIT` the command frame in flight; in `READ_WAIT` the reply frame; in `PARSE` the frame in `RXBUF`. -/
def fetch (s : State) : Option Instr :=
  match s.phase with
  | .idle => s.requests.head?.map (decodeRequest s.cfg.argW)
  | .dispatch => some (inProgress s)
  | .openWait => s.openReplies.head?.map fun _ => inProgress s
  | .writeWait => s.writeReplies.head?.map fun _ => frameOr (decodeCommand s.txbuf) s
  | .readWait => s.readReplies.head?.map fun r => replyInstr r s
  | .parse => some (if s.rxlen = 9 then frameOr (decodeReply s.rxbuf) s else inProgress s)

/-- A request word on the port of an idle block. -/
def placeRequest (w : ReqWord) (s : State) : State :=
  { s with rst := false, phase := .idle, requests := w :: s.requests }

/-- A command frame in flight: handed over, with the reply `Count` 9 where no reply waits, since `WRITE_DONE` is
enabled by a reply (41_transaction_engine.md R103; log 2). -/
def placeCommand (f : Frame) (s : State) : State :=
  { s with
    rst := false
    phase := .writeWait
    txbuf := f
    writeReplies := if s.writeReplies.isEmpty then [.count 9] else s.writeReplies }

/-- A reply frame on the receive channel of a block that waits for it (41_transaction_engine.md R104; log 2). -/
def placeReply (f : Frame) (s : State) : State :=
  { s with rst := false, phase := .readWait, readReplies := .data 9 f :: s.readReplies }

/-- A table word placed where the next step fetches it; a request word of the table is written for `ARG_W` = 32 and is
put on the port at the width in force (log 2). -/
def placeWord (nbits w : Nat) (s : State) : State :=
  if nbits ≤ 40 then placeRequest (requestWord s.cfg.argW (wordOp tableArgW w) (wordArg tableArgW w)) s
  else
    match decodeCommand (frameOfBits (BitVec.ofNat 72 w)) with
    | .ok _ => placeCommand (frameOfBits (BitVec.ofNat 72 w)) s
    | .error _ => placeReply (frameOfBits (BitVec.ofNat 72 w)) s

end Sys2Proof.Machine
end

