-- ==== Sys2Proof/Machine/Step.lean ====
section
/-! DEFINITION. One step of the block, and the placing of an instruction for the next step. -/

namespace Sys2Proof.Machine

/-- One step: `RST`, if asserted (70_reset_and_hazards.md R170); else the instruction fetched
(41_transaction_engine.md R100); else, where no step is enabled, waiting with all state kept (60_exceptions.md
R158, 70_reset_and_hazards.md R181; log 9). -/
def step (s : State) : Host.Outcome State Fault Refusal :=
  if s.rst then .next (takeReset s)
  else
    match fetch s with
    | some i => exec i s
    | none => .next s

/-- `s` with the table word placed so that the next step runs it: log 2. -/
def State.withFetchWord (s : State) (nbits w : Nat) : State := placeWord nbits w s

end Sys2Proof.Machine
end

