-- ==== Sys2Proof/Machine/BigStep.lean ====
section
/-! DEFINITION. The big-step form of a request: its result as a function of the connection state, the request and the
transport's replies in order (41_transaction_engine.md R110, R112; 42_operations.md R125 to R127, R129). The
machine does not use it; claims compare the two. -/

namespace Sys2Proof.Machine

/-- What one request comes to: the connection state after it, its status, the number of `TRead` calls, the parsed
Response, and the transport calls it makes, in order. -/
structure Result where
  conn     : Conn
  status   : Status
  attempts : Nat
  rsp      : Option Response
  calls    : List Call
deriving DecidableEq, Repr

/-- The judgement on nine reply bytes (the last three lines of `read(a)`, 41_transaction_engine.md R110). -/
def resultOfFrame (conn : Conn) (a : Nat) (f : Frame) : Result :=
  if f.b0 ≠ header then ⟨conn, .invalidHeader, a, none, [.tRead]⟩
  else if checksum f.toBody ≠ f.b8 then ⟨conn, .checksumMismatch, a, none, [.tRead]⟩
  else ⟨conn, .ok, a, some (responseOf f), [.tRead]⟩

/-- A result with one more transport call before its own. -/
def afterCall (c : Call) (r : Result) : Result := { r with calls := c :: r.calls }

/-- `read(a)` (41_transaction_engine.md R110); none where a reply never comes (70_reset_and_hazards.md R181). -/
def resultOfReads (conn : Conn) (a : Nat) (rs : List ReadReply) : Option Result :=
  match rs with
  | [] => none
  | .timeout _ _ :: rest =>
      if a < 3 then (resultOfReads conn (a + 1) rest).map (afterCall .tRead)
      else some ⟨conn, .readFailed, a, none, [.tRead]⟩
  | .error _ _ :: _ => some ⟨conn, .transportError, a, none, [.tRead]⟩
  | .data len f :: _ =>
      if len.val < 9 then some ⟨conn, .incompleteResponse, a, none, [.tRead]⟩ else some (resultOfFrame conn a f)

/-- After the `TWrite` of `f` (41_transaction_engine.md R110). -/
def resultOfWrite (conn : Conn) (f : Frame) (ws : List WriteReply) (rs : List ReadReply) : Option Result :=
  match ws with
  | [] => none
  | .error _ :: _ => some ⟨conn, .transportError, 0, none, [.tWrite f]⟩
  | .count n :: _ =>
      if n.val < 9 then some ⟨conn, .partialWrite, 0, none, [.tWrite f]⟩
      else (resultOfReads conn 1 rs).map (afterCall (.tWrite f))

/-- `exec(CONN, op, arg, replies)` of a sensor command (41_transaction_engine.md R110). -/
def resultOfSensor (cfg : Config) (conn : Conn) (op : Op) (arg : Arg) (ws : List WriteReply) (rs : List ReadReply) :
    Option Result :=
  match buildRequest cfg op arg with
  | none => some ⟨conn, .invalidArgument, 0, none, []⟩
  | some f => if conn = .opened then resultOfWrite conn f ws rs else some ⟨conn, .notConnected, 0, none, []⟩

/-- After a `TOpen` (42_operations.md R125). -/
def resultOfOpen (conn : Conn) (os : List Bool) : Option Result :=
  match os with
  | [] => none
  | true :: _ => some ⟨.opened, .ok, 0, none, [.tOpen]⟩
  | false :: _ => some ⟨conn, .connectionError, 0, none, [.tOpen]⟩

/-- `CONNECT` (42_operations.md R125, R129). -/
def resultOfConnect (cfg : Config) (conn : Conn) (os : List Bool) : Option Result :=
  match conn with
  | .unopened => resultOfOpen .unopened os
  | .opened => some ⟨.opened, .ok, 0, none, []⟩
  | .closed =>
      if cfg.reopenAllowed then resultOfOpen .closed os else some ⟨.closed, .connectionError, 0, none, []⟩

/-- `CLOSE` (42_operations.md R126, R129). -/
def resultOfClose (conn : Conn) : Result :=
  match conn with
  | .unopened => ⟨.unopened, .ok, 0, none, []⟩
  | .opened => ⟨.closed, .ok, 0, none, [.tClose]⟩
  | .closed => ⟨.closed, .ok, 0, none, []⟩

/-- The result of any request; none where a transport call of it is never answered. -/
def resultOf (cfg : Config) (conn : Conn) (op : Op) (arg : Arg) (os : List Bool) (ws : List WriteReply)
    (rs : List ReadReply) : Option Result :=
  match op with
  | .connect => resultOfConnect cfg conn os
  | .close => some (resultOfClose conn)
  | .reserved7 => some ⟨conn, .invalidArgument, 0, none, []⟩
  | .readCo2 => resultOfSensor cfg conn .readCo2 arg ws rs
  | .zeroCal => resultOfSensor cfg conn .zeroCal arg ws rs
  | .spanCal => resultOfSensor cfg conn .spanCal arg ws rs
  | .setAbc => resultOfSensor cfg conn .setAbc arg ws rs
  | .setRange => resultOfSensor cfg conn .setRange arg ws rs

/-- The completion record of a result (30_encoding.md R68, 41_transaction_engine.md R106). -/
def completionOf (op : Op) (r : Result) : Completion where
  status   := r.status
  attempts := BitVec.ofNat 2 r.attempts
  rspValid := rspValidAfter r.status op
  ppmValid := ppmValidAfter r.status op
  rsp      := r.rsp

end Sys2Proof.Machine
end

