-- ==== Sys2Proof/Machine/Ports.lean ====
section
/-! DEFINITION. The two outside agents' side of the ports: what the host and the transport can do between two steps
(70_reset_and_hazards.md R185). No step of the block calls these: log 8. -/

namespace Sys2Proof.Machine

/-- The host holds one more request word for the port (41_transaction_engine.md R101), which has `3 + ARG_W` bits
(30_encoding.md R60). -/
def presentRequest (w : ReqWord) (s : State) : State :=
  { s with requests := s.requests ++ [w % 2 ^ (3 + s.cfg.argW)] }

/-- The host asserts `RST` (70_reset_and_hazards.md R170). -/
def assertRst (s : State) : State := { s with rst := true }

/-- The transport answers the outstanding `TOpen`; with none outstanding and unanswered the reply is dropped
(20_memory.md R46, 70_reset_and_hazards.md R172). -/
def answerOpen (ready : Bool) (s : State) : State :=
  if s.phase = .openWait ∧ s.openReplies = [] then { s with openReplies := [ready] } else s

/-- A `TWrite` reply from its channel codes: `kind` 0 `Count`, 1 `Error`; `count` 10 to 15 is reserved
(20_memory.md R44, 30_encoding.md R69, 93_implementation_defined.md U6). -/
def writeReplyOfCode (kind : BitVec 1) (count : BitVec 4) : Option WriteReply :=
  if kind = 1 then some (.error count)
  else if h : count.toNat < 10 then some (.count ⟨count.toNat, h⟩)
  else none

/-- A `TRead` reply from its channel codes: `kind` 0 `Data`, 1 `Timeout`, 2 `Error`, 3 reserved; `len` 10 to 15 is
reserved (20_memory.md R45, 30_encoding.md R69, 93_implementation_defined.md U5, U6). -/
def readReplyOfCode (kind : BitVec 2) (len : BitVec 4) (bytes : Frame) : Option ReadReply :=
  if kind = 0 then
    if h : len.toNat < 10 then some (.data ⟨len.toNat, h⟩ bytes) else none
  else if kind = 1 then some (.timeout len bytes)
  else if kind = 2 then some (.error len bytes)
  else none

/-- The transport answers the outstanding `TWrite`; a reserved code is refused, and with no call outstanding and
unanswered the reply is dropped (20_memory.md R44, 70_reset_and_hazards.md R172; log 13). -/
def answerWrite (kind : BitVec 1) (count : BitVec 4) (s : State) : Host.Outcome State Fault Refusal :=
  match writeReplyOfCode kind count with
  | none => .refused .reservedWriteReply
  | some r => .next (if s.phase = .writeWait ∧ s.writeReplies = [] then { s with writeReplies := [r] } else s)

/-- The transport answers the outstanding `TRead`; likewise (20_memory.md R45, 70_reset_and_hazards.md R172; log 13). -/
def answerRead (kind : BitVec 2) (len : BitVec 4) (bytes : Frame) (s : State) : Host.Outcome State Fault Refusal :=
  match readReplyOfCode kind len bytes with
  | none => .refused .reservedReadReply
  | some r => .next (if s.phase = .readWait ∧ s.readReplies = [] then { s with readReplies := [r] } else s)

/-- The nine result registers, the only registers the host reads (10_state.md R10, R18). -/
inductive ResultReg where
  | valid
  | status
  | attempts
  | rspValid
  | ppmValid
  | echo
  | conc
  | rem
  | chk
deriving DecidableEq, Repr

/-- A bit as a number. -/
def bit (b : Bool) : Nat := if b then 1 else 0

/-- A Response register that holds `v`, as the host sees it: absent while `RES_RSP_VALID` = 0, with no default
(10_state.md R18, 93_implementation_defined.md U1; log 12). -/
def readResponse (v : Nat) (s : State) : Option Nat := if s.resRspValid then some v else none

/-- The host reads a result register. No read stops anything: while `RES_VALID` = 0 what is read means nothing
(10_state.md R18, R25), and the register gives the bits it holds. DESIGN CHOICE (unsafe), log 19. -/
def hostRead (r : ResultReg) (s : State) : Option Nat :=
  match r with
  | .valid => some (bit s.resValid)
  | .status => some (statusCode s.resStatus).toNat
  | .attempts => some s.resAttempts.toNat
  | .rspValid => some (bit s.resRspValid)
  | .ppmValid => some (bit s.resPpmValid)
  | .echo => readResponse s.resEcho.toNat s
  | .conc => readResponse s.resConc.toNat s
  | .rem => readResponse s.resRem.toNat s
  | .chk => readResponse s.resChk.toNat s

end Sys2Proof.Machine
end

