-- ==== Sys2Proof/Safety.lean ====
section
/-! DEFINITION. What a run is and what holds in every reachable state: the invariants of 10_state.md R24, the runs
of 70_reset_and_hazards.md R184 with the two outside agents acting between steps, and the waiting states of R181. -/

namespace Sys2Proof.Machine

/-- What a request that ends without a Response leaves (41_transaction_engine.md R106, 60_exceptions.md R152): the
status and the attempt count in the result registers, both Response flags clear, the Response registers as they were,
one completion record, `IDLE`. -/
def endedWithout (st : Status) (s : State) : State :=
  { s with
    resStatus   := st
    resAttempts := s.attempt
    resRspValid := false
    resPpmValid := false
    resValid    := true
    phase       := .idle
    completions := s.completions ++ [⟨st, s.attempt, false, false, none⟩] }

/-- What a sensor command that ends `OK` with a Response leaves (41_transaction_engine.md R106); `ppm` says whether it
was `READ_CO2`. -/
def endedWith (ppm : Bool) (r : Response) (s : State) : State :=
  { s with
    resStatus   := .ok
    resAttempts := s.attempt
    resRspValid := true
    resPpmValid := ppm
    resEcho     := r.echo
    resConc     := r.conc
    resRem      := r.rem
    resChk      := r.chk
    resValid    := true
    phase       := .idle
    completions := s.completions ++ [⟨.ok, s.attempt, true, ppm, some r⟩] }

/-- What a `DISPATCH` step that sends the frame `f` leaves (41_transaction_engine.md R102): the frame in `TXBUF`, one
`TWrite` of it issued, `WRITE_WAIT`. -/
def handedOver (f : Frame) (s : State) : State :=
  { s with txbuf := f, calls := s.calls ++ [.tWrite f], phase := .writeWait }

/-- 10_state.md R24 (f): `CONN` is `Unopened`, or `Closed` with `REOPEN_ALLOWED`. -/
abbrev MayReopen (s : State) : Prop := s.conn = .unopened ∨ (s.conn = .closed ∧ s.cfg.reopenAllowed = true)

/-- 10_state.md R24 (d): a sensor command on an open connection, its frame sealed in `TXBUF`. -/
abbrev FrameInFlight (s : State) : Prop :=
  s.conn = .opened ∧ isSensor s.cmdOp = true ∧ s.txbuf.b0 = 0xFF ∧ s.txbuf.b1 = 0x01 ∧
    s.txbuf.b8 = checksum s.txbuf.toBody

/-- 10_state.md R24 (c): `ATTEMPT` is 1 to 3 in `READ_WAIT` and `PARSE`, 0 in `DISPATCH`, `OPEN_WAIT` and
`WRITE_WAIT`. Its width gives `ATTEMPT <= 3` everywhere. -/
abbrev AttemptFits (s : State) : Prop :=
  ((s.phase = .readWait ∨ s.phase = .parse) → s.attempt ≠ 0) ∧
    ((s.phase = .dispatch ∨ s.phase = .openWait ∨ s.phase = .writeWait) → s.attempt = 0)

/-- 10_state.md R24 (h): whenever `RES_VALID` = 1, `RES_PPM_VALID` implies `RES_RSP_VALID` implies `OK`. -/
abbrev ResultFits (s : State) : Prop :=
  s.resValid = true →
    (s.resPpmValid = true → s.resRspValid = true) ∧ (s.resRspValid = true → s.resStatus = .ok)

/-- 10_state.md R10, R14: `CMD_ARG` is a value of `ARG_W` bits. -/
abbrev ArgumentFits (s : State) : Prop := s.cmdArg < 2 ^ s.cfg.argW

/-- The invariants of 10_state.md R24, with the width of `CMD_ARG` (R10), less (a) and (b), which the types of `CONN` and
`PHASE` say, and less the part of (g) about the time between reset and the first accept, which is a statement about
runs (`run_idle_without_result`). -/
abbrev BlockInv (s : State) : Prop :=
  AttemptFits s ∧
    ((s.phase = .writeWait ∨ s.phase = .readWait ∨ s.phase = .parse) → FrameInFlight s) ∧
    (s.phase = .parse → s.rxlen = 9) ∧
    (s.phase = .openWait → s.cmdOp = .connect ∧ MayReopen s) ∧
    (s.resValid = true → s.phase = .idle) ∧
    ResultFits s ∧
    ArgumentFits s

/-- The states that a block with parameters `cfg` can come to: from power-on, by the block's steps and by what the host
and the transport may do between two steps (70_reset_and_hazards.md R185), any number of resets included (R172). The
states of one run are `Run`. -/
inductive Reachable (cfg : Config) : State → Prop where
  | reset : Reachable cfg { State.reset with cfg := cfg }
  | step {s t : State} : Reachable cfg s → step s = .next t → Reachable cfg t
  | request {s : State} (w : ReqWord) : Reachable cfg s → Reachable cfg (presentRequest w s)
  | rst {s : State} : Reachable cfg s → Reachable cfg (assertRst s)
  | answerOpen {s : State} (ready : Bool) : Reachable cfg s → Reachable cfg (answerOpen ready s)
  | answerWrite {s t : State} (kind : BitVec 1) (count : BitVec 4) :
      Reachable cfg s → answerWrite kind count s = .next t → Reachable cfg t
  | answerRead {s t : State} (kind : BitVec 2) (len : BitVec 4) (bytes : Frame) :
      Reachable cfg s → answerRead kind len bytes s = .next t → Reachable cfg t

/-- The wait phases (10_state.md R12, R23). -/
abbrev InWait (s : State) : Prop := s.phase = .openWait ∨ s.phase = .writeWait ∨ s.phase = .readWait

/-- The reply that the outstanding call waits for is there. -/
abbrev ReplyWaits (s : State) : Prop :=
  (s.phase = .openWait ∧ s.openReplies ≠ []) ∨ (s.phase = .writeWait ∧ s.writeReplies ≠ []) ∨
    (s.phase = .readWait ∧ s.readReplies ≠ [])

/-- The states that one reset leaves, with no request presented yet: the registers of 10_state.md R25, `RST` low again
(70_reset_and_hazards.md R170). The other registers hold anything. -/
abbrev AfterReset (s : State) : Prop :=
  s.conn = .unopened ∧ s.phase = .idle ∧ s.attempt = 0 ∧ s.resValid = false ∧ s.rst = false ∧ s.requests = []

/-- The states of one run (70_reset_and_hazards.md R184): `Run r ws s` says that `s` comes after the reset that left `r`,
when the host has presented the requests `ws`, each while `REQ_READY` = 1 and the port was free. One reset, at the start:
no `RST` comes later (R185, R172). -/
inductive Run (r : State) : List ReqWord → State → Prop where
  | reset : AfterReset r → Run r [] r
  | step {ws : List ReqWord} {s t : State} : Run r ws s → step s = .next t → Run r ws t
  | request {ws : List ReqWord} {s : State} (w : ReqWord) :
      Run r ws s → reqReady s = true → s.requests = [] → Run r (ws ++ [w]) (presentRequest w s)
  | answerOpen {ws : List ReqWord} {s : State} (ready : Bool) : Run r ws s → Run r ws (answerOpen ready s)
  | answerWrite {ws : List ReqWord} {s t : State} (kind : BitVec 1) (count : BitVec 4) :
      Run r ws s → answerWrite kind count s = .next t → Run r ws t
  | answerRead {ws : List ReqWord} {s t : State} (kind : BitVec 2) (len : BitVec 4) (bytes : Frame) :
      Run r ws s → answerRead kind len bytes s = .next t → Run r ws t

/-- The run is over (70_reset_and_hazards.md R184): the block is in `IDLE`, no request is left, and the completion of the
last one has been emitted, which `RES_VALID` = 1 says: an accept and a reset clear it and only a completion sets it
(10_state.md R18, R24 (g), R25). So a reset in mid-transaction leaves no such state (R172): log 20. -/
abbrev RunOver (s : State) : Prop := s.phase = .idle ∧ s.requests = [] ∧ s.resValid = true

/-- Stuck, not final (70_reset_and_hazards.md R181, R184): a wait phase with no reply. -/
abbrev Stuck (s : State) : Prop := InWait s ∧ ¬ ReplyWaits s

/-- How often the transport was told to close, among these calls. -/
def closeCount (cs : List Call) : Nat := cs.countP fun c => c == .tClose

/-- How often the transport was asked to open, among these calls. -/
def openCount (cs : List Call) : Nat := cs.countP fun c => c == .tOpen

/-- The transport has been told to close at most as often as it was asked to open, and once less while the connection is
open or being opened (20_memory.md R47). -/
abbrev CallsBalance (s : State) : Prop :=
  closeCount s.calls + (if s.conn = .opened ∨ s.phase = .openWait then 1 else 0) ≤ openCount s.calls

/-- Every frame handed to the transport so far is what the codec builds for a sensor command with the parameters in
force, and is a well-formed command frame (30_encoding.md R65, R66). -/
def WireClean (s : State) : Prop :=
  ∀ f : Frame, Call.tWrite f ∈ s.calls →
    (∃ (op : Op) (arg : Arg), isSensor op = true ∧ buildRequest s.cfg op arg = some f) ∧
      ∃ i, decodeCommand f = .ok i ∧ wellFormed s.cfg i = true

end Sys2Proof.Machine
end

