-- ==== Sys2Proof/Certificates/Slice0/Obligations.lean ====
section
/-! DEFINITION. The statements for the provers. Each docstring says which rule of spec/ it formalises, or that it
states the model's own choice. `bytes9` writes a frame out byte by byte; `handedOver` writes out
the state that sending a frame leaves, `endedWithout` and `endedWith` the states that a completion leaves. -/

open Sys2Proof Sys2Proof.Machine

/-! ### Reset and the invariants -/

/-- 10_state.md R25 and 70_reset_and_hazards.md R170: the four registers reset gives a value, and the two outputs; the
parameters at the defaults of 00_scope.md R4, with a legal `ARG_W`. -/
def Obligations.ResetLeavesStatedValues : Prop :=
  State.reset.conn = .unopened ∧ State.reset.phase = .idle ∧ State.reset.attempt = 0 ∧
    State.reset.resValid = false ∧ busy State.reset = false ∧ reqReady State.reset = true ∧
    State.reset.cfg = ⟨32, [1000, 2000, 3000, 5000, 10000], false⟩ ∧ State.reset.cfg.Legal

/-- 10_state.md R24 holds after reset, whatever the parameters. -/
def Obligations.ResetMeetsInvariants : Prop := ∀ cfg : Config, BlockInv { State.reset with cfg := cfg }

/-- 10_state.md R24: every step of the block, from any state that meets the invariants, keeps them. -/
def Obligations.StepKeepsInvariants : Prop := ∀ s t : State, BlockInv s → step s = .next t → BlockInv t

/-- 10_state.md R24: the invariants hold in every reachable state, whatever the host and the transport do between
steps; the parameters never change (00_scope.md R4). -/
def Obligations.ReachableStatesMeetInvariants : Prop :=
  ∀ (cfg : Config) (s : State), Reachable cfg s → BlockInv s ∧ s.cfg = cfg

/-- 70_reset_and_hazards.md R170 to R172 and 10_state.md R25: `RST` takes the block to its reset state in one step
from any state; it makes no transport call and emits no completion; the reply to the call that was outstanding is
dropped, and no other input is touched. What the other registers then hold is not said. -/
def Obligations.ResetInputTakesResetState : Prop :=
  ∀ s : State, s.rst = true →
    ∃ t, step s = .next t ∧ t.conn = .unopened ∧ t.phase = .idle ∧ t.attempt = 0 ∧ t.resValid = false ∧
      t.calls = s.calls ∧ t.completions = s.completions ∧ t.requests = s.requests ∧ t.cfg = s.cfg ∧
      t.openReplies = (if s.phase = .openWait then s.openReplies.tail else s.openReplies) ∧
      t.writeReplies = (if s.phase = .writeWait then s.writeReplies.tail else s.writeReplies) ∧
      t.readReplies = (if s.phase = .readWait then s.readReplies.tail else s.readReplies)

/-! ### What a step runs -/

/-- The model's convention, log 1: the instruction that a step runs is the one decoded from the request port in `IDLE`,
from `CMD_OP` and `CMD_ARG` in `DISPATCH` and `OPEN_WAIT`, from `TXBUF` in `WRITE_WAIT`, from the receive channel in
`READ_WAIT`, from `RXBUF` in `PARSE`; the step is that instruction's `exec` and nothing else. -/
def Obligations.StepRunsDecodedInstruction : Prop :=
  ∀ s : State, s.rst = false →
    (∀ w rest i, s.phase = .idle → s.requests = w :: rest → decode s.cfg.argW (.req w) = .ok i → step s = exec i s) ∧
    (s.phase = .dispatch → step s = exec (requestInstr s.cmdOp s.cmdArg) s) ∧
    (s.phase = .openWait → s.openReplies ≠ [] → step s = exec (requestInstr s.cmdOp s.cmdArg) s) ∧
    (∀ i, s.phase = .writeWait → s.writeReplies ≠ [] → decode s.cfg.argW (.cmd9 s.txbuf) = .ok i → step s = exec i s) ∧
    (∀ f rest i, s.phase = .readWait → s.readReplies = .data 9 f :: rest → decode s.cfg.argW (.rsp9 f) = .ok i →
      step s = exec i s) ∧
    (∀ i, s.phase = .parse → s.rxlen = 9 → decode s.cfg.argW (.rsp9 s.rxbuf) = .ok i → step s = exec i s)

/-- Log 1: reading a step as the frame in hand or as the request in progress makes no difference. While a request is in
progress and a step is enabled, the step is that request's own (41_transaction_engine.md R100). -/
def Obligations.StepRunsRequestInProgress : Prop :=
  ∀ s : State, s.rst = false → s.phase ≠ .idle → fetch s ≠ none →
    step s = exec (requestInstr s.cmdOp s.cmdArg) s

/-- 60_exceptions.md R158: an idle block with no request waits, and all state is kept. -/
def Obligations.IdleBlockKeepsAllState : Prop :=
  ∀ (s : State) (k : Nat), s.rst = false → s.phase = .idle → s.requests = [] →
    Host.Core.run Sys2Proof.core k s = .next s

/-- 70_reset_and_hazards.md R181: a call that is never answered holds the block in its wait phase for ever,
`REQ_READY` stays 0, and `RST` frees it. -/
def Obligations.UnansweredCallHoldsBlock : Prop :=
  ∀ s : State, s.rst = false → Stuck s →
    (∀ k, Host.Core.run Sys2Proof.core k s = .next s) ∧ reqReady s = false ∧
      ∃ t, step (assertRst s) = .next t ∧ t.phase = .idle ∧ reqReady t = true

/-! ### Encodings -/

/-- At every `ARG_W`, every instruction whose argument fits, with every operand, decodes from its encoding
(30_encoding.md R60 to R65). -/
def Obligations.DecodeAfterEncode : Prop :=
  ∀ (argW : Nat) (i : Instr), argFits argW i = true → decode argW (encode argW i) = .ok i

/-- At every `ARG_W`, every word of `3 + ARG_W` bits, and no other, is the encoding of exactly the request it decodes to,
and the argument of that request fits (30_encoding.md R60, R61). -/
def Obligations.EncodeAfterDecodeRequest : Prop :=
  ∀ (argW : Nat) (w : ReqWord),
    (w < 2 ^ (3 + argW) → ∃ i, decode argW (.req w) = .ok i ∧ argFits argW i = true ∧ encode argW i = .req w) ∧
      (2 ^ (3 + argW) ≤ w → decode argW (.req w) = .error .tooWide)

/-- A frame that decodes is the encoding of what it decodes to: no bit of it is dropped (30_encoding.md R62, R63). -/
def Obligations.EncodeAfterDecodeFrame : Prop :=
  ∀ (argW : Nat) (f : Frame) (i : Instr),
    (decodeCommand f = .ok i → encode argW i = .cmd9 f) ∧ (decodeReply f = .ok i → encode argW i = .rsp9 f)

/-- The table's numbers, which are written for `ARG_W` = 32: an encoded instruction, as the number spec/opcode_table.json
writes, decodes to itself, but for a reply frame that is also a command frame, which is read as the command (log 3,
log 4). -/
def Obligations.TableWordDecodes : Prop :=
  ∀ i : Instr, argFits 32 i = true → (∀ f j, encode 32 i = .rsp9 f → decodeCommand f ≠ .ok j) →
    decodeTableWord (encodedWord (encode 32 i)).1 (encodedWord (encode 32 i)).2 = some i

/-- 00_scope.md R6: byte `i` of a frame stands in bits `[71-8*i : 64-8*i]` of its 72-bit value, and the two determine
each other. -/
def Obligations.FrameBitsRoundTrip : Prop :=
  (∀ f : Frame,
    (frameBits f).extractLsb' 64 8 = f.b0 ∧ (frameBits f).extractLsb' 56 8 = f.b1 ∧
      (frameBits f).extractLsb' 48 8 = f.b2 ∧ (frameBits f).extractLsb' 40 8 = f.b3 ∧
      (frameBits f).extractLsb' 32 8 = f.b4 ∧ (frameBits f).extractLsb' 24 8 = f.b5 ∧
      (frameBits f).extractLsb' 16 8 = f.b6 ∧ (frameBits f).extractLsb' 8 8 = f.b7 ∧
      (frameBits f).extractLsb' 0 8 = f.b8) ∧
    (∀ f : Frame, frameOfBits (frameBits f) = f) ∧ (∀ w : BitVec 72, frameBits (frameOfBits w) = w)

/-- Words of 95_test_vectors.md V3, V4, V11, V12 and V17, written out, decode to the instructions they stand for, the last
two on a port of `ARG_W` = 17; and a word that is in no vector, a reply of V12 with byte 0 changed to 0x00, decodes to
nothing. The table words are numbered as log 3 has them. That 0xFF0179000000000086 and 0xFF01991388000000CB, which fit a
command row and the reply row (V9 parses the second as a reply), are read as the commands is the model's choice: log 4. -/
def Obligations.SampleWordsDecode : Prop :=
  decodeTableWord 40 0x200000000 = some (.readCo2 0) ∧
    decodeTableWord 40 0x4000007D0 = some (.spanCal 2000) ∧
    decodeTableWord 40 0x600002710 = some (.setRange 10000) ∧
    decodeTableWord 72 0xFF0179000000000086 = some (.frameSetAbc false 0x86) ∧
    decodeTableWord 72 0x00860000000000007A = none ∧
    decodeTableWord 72 0xFF01991388000000CB = some (.frameSetRange 5000 0xCB) ∧
    decodeTableWord 72 0xFF86019F12345678C6 = some (.frameResponse 0x86 415 0x12345678 0xC6) ∧
    decode 17 (.req 0x807D0) = .ok (.spanCal 2000) ∧ decode 17 (.req 0x90000) = .ok (.spanCal 65536)

/-- 30_encoding.md R68: the fields of the completion record, as one word. That a record without a Response has no such
word is the model's reading of 10_state.md R18 and 93_implementation_defined.md U1: log 12. -/
def Obligations.CompletionWordFields : Prop :=
  ∀ c : Completion,
    (completionTop c).extractLsb' 4 4 = statusCode c.status ∧ (completionTop c).extractLsb' 2 2 = c.attempts ∧
      (completionTop c).getLsbD 1 = c.rspValid ∧ (completionTop c).getLsbD 0 = c.ppmValid ∧
      (c.rsp = none → completionBits c = none) ∧
      (∀ r, c.rsp = some r → ∃ w, completionBits c = some w ∧ w.extractLsb' 64 8 = completionTop c ∧
        w.extractLsb' 56 8 = r.echo ∧ w.extractLsb' 40 16 = r.conc ∧ w.extractLsb' 8 32 = r.rem ∧
        w.extractLsb' 0 8 = r.chk)

/-- 60_exceptions.md R150 with the codes of R140: the family is a function of the code, `argument` for code 6,
`protocol` for codes 1 to 5 and 7 to 9; no two statuses share a code and none has code 10 or above. -/
def Obligations.StatusCodesAndFamilies : Prop :=
  ([Status.ok, .invalidHeader, .checksumMismatch, .incompleteResponse, .partialWrite, .readFailed, .invalidArgument,
      .notConnected, .connectionError, .transportError].map fun a => (statusCode a).toNat) = List.range 10 ∧
    (∀ a b : Status, statusCode a = statusCode b → a = b) ∧
    (∀ a : Status, (statusCode a).toNat < 10) ∧
    (∀ a : Status, statusFamily a = none ↔ (statusCode a).toNat = 0) ∧
    (∀ a : Status, statusFamily a = some .argument ↔ (statusCode a).toNat = 6) ∧
    (∀ a : Status, statusFamily a = some .protocol ↔
      (1 ≤ (statusCode a).toNat ∧ (statusCode a).toNat ≤ 5) ∨ (7 ≤ (statusCode a).toNat ∧ (statusCode a).toNat ≤ 9))

/-! ### The frame codec -/

/-- 40_frame_codec.md R80, R81 (a) to (c): the checksum is the additive inverse modulo 256 of the sum of bytes 1 to 7,
also when that sum is taken in 8 bits, and byte 0 does not enter it. -/
def Obligations.ChecksumIsAdditiveInverse : Prop :=
  ∀ b : Body,
    (checksum b).toNat = (256 - bodySum b % 256) % 256 ∧
      (bodySum b + (checksum b).toNat) % 256 = 0 ∧
      checksum b = -(b.b1 + b.b2 + b.b3 + b.b4 + b.b5 + b.b6 + b.b7) ∧
      ∀ x : Byte, checksum { b with b0 := x } = checksum b

/-- 40_frame_codec.md R81 (e): any error in exactly one of bytes 1 to 8 of a valid frame is detected. -/
def Obligations.SingleByteErrorDetected : Prop :=
  ∀ (f : Frame) (x : Byte), valid9 f = true →
    (x ≠ f.b1 → valid9 { f with b1 := x } = false) ∧ (x ≠ f.b2 → valid9 { f with b2 := x } = false) ∧
      (x ≠ f.b3 → valid9 { f with b3 := x } = false) ∧ (x ≠ f.b4 → valid9 { f with b4 := x } = false) ∧
      (x ≠ f.b5 → valid9 { f with b5 := x } = false) ∧ (x ≠ f.b6 → valid9 { f with b6 := x } = false) ∧
      (x ≠ f.b7 → valid9 { f with b7 := x } = false) ∧ (x ≠ f.b8 → valid9 { f with b8 := x } = false)

/-- 40_frame_codec.md R92 (d): bytes 1 to 7 are free, and each choice of them gives exactly one valid frame. -/
def Obligations.ValidFramesAreSevenFreeBytes : Prop :=
  ∀ b1 b2 b3 b4 b5 b6 b7 : Byte,
    ∃ f : Frame, (valid9 f = true ∧ f.b1 = b1 ∧ f.b2 = b2 ∧ f.b3 = b3 ∧ f.b4 = b4 ∧ f.b5 = b5 ∧ f.b6 = b6 ∧
        f.b7 = b7) ∧
      ∀ g : Frame, valid9 g = true → g.b1 = b1 → g.b2 = b2 → g.b3 = b3 → g.b4 = b4 → g.b5 = b5 → g.b6 = b6 →
        g.b7 = b7 → g = f

/-- 40_frame_codec.md R83: `READ_CO2` builds one frame, whatever the argument and its width. -/
def Obligations.BuildReadCo2Frame : Prop :=
  ∀ (cfg : Config) (n : Nat) (arg : BitVec n),
    build cfg .readCo2 arg = some (bytes9 0xFF 0x01 0x86 0x00 0x00 0x00 0x00 0x00 0x79)

/-- 40_frame_codec.md R84: `ZERO_CAL` builds one frame, whatever the argument and its width. -/
def Obligations.BuildZeroCalFrame : Prop :=
  ∀ (cfg : Config) (n : Nat) (arg : BitVec n),
    build cfg .zeroCal arg = some (bytes9 0xFF 0x01 0x87 0x00 0x00 0x00 0x00 0x00 0x78)

/-- 40_frame_codec.md R85: `SPAN_CAL` sends `ppm` big-endian, sealed with `(0x77 - d0 - d1) & 0xFF`, and takes exactly
the values up to 65535. -/
def Obligations.BuildSpanCalFrame : Prop :=
  ∀ (cfg : Config) (n : Nat) (arg : BitVec n),
    (65535 < arg.toNat → build cfg .spanCal arg = none) ∧
      ∀ hi lo : Byte, arg.toNat = hi.toNat * 256 + lo.toNat →
        build cfg .spanCal arg = some (bytes9 0xFF 0x01 0x88 hi lo 0x00 0x00 0x00 (0x77 - hi - lo))

/-- 40_frame_codec.md R86: `SET_ABC` reads bit 0 of the argument and nothing else. -/
def Obligations.BuildSetAbcFrame : Prop :=
  ∀ (cfg : Config) (n : Nat) (arg : BitVec n),
    build cfg .setAbc arg =
      some (if arg.getLsbD 0 then bytes9 0xFF 0x01 0x79 0xA0 0x00 0x00 0x00 0x00 0xE6
        else bytes9 0xFF 0x01 0x79 0x00 0x00 0x00 0x00 0x00 0x86)

/-- 40_frame_codec.md R87: `SET_RANGE` takes exactly the members of `RANGE_SET`, compared with the whole argument, and
sends them big-endian, sealed with `(0x66 - d0 - d1) & 0xFF`; with the default set these are the five frames listed. -/
def Obligations.BuildSetRangeFrame : Prop :=
  (∀ (cfg : Config) (n : Nat) (arg : BitVec n),
    ((∀ r ∈ cfg.rangeSet, r.toNat ≠ arg.toNat) → build cfg .setRange arg = none) ∧
      ∀ r ∈ cfg.rangeSet, r.toNat = arg.toNat → ∀ hi lo : Byte, arg.toNat = hi.toNat * 256 + lo.toNat →
        build cfg .setRange arg = some (bytes9 0xFF 0x01 0x99 hi lo 0x00 0x00 0x00 (0x66 - hi - lo))) ∧
    buildRequest Config.standard .setRange 1000 = some (bytes9 0xFF 0x01 0x99 0x03 0xE8 0x00 0x00 0x00 0x7B) ∧
    buildRequest Config.standard .setRange 2000 = some (bytes9 0xFF 0x01 0x99 0x07 0xD0 0x00 0x00 0x00 0x8F) ∧
    buildRequest Config.standard .setRange 3000 = some (bytes9 0xFF 0x01 0x99 0x0B 0xB8 0x00 0x00 0x00 0xA3) ∧
    buildRequest Config.standard .setRange 5000 = some (bytes9 0xFF 0x01 0x99 0x13 0x88 0x00 0x00 0x00 0xCB) ∧
    buildRequest Config.standard .setRange 10000 = some (bytes9 0xFF 0x01 0x99 0x27 0x10 0x00 0x00 0x00 0x2F)

/-- 40_frame_codec.md R92 (a), (c): every frame built is valid, and a parser that is fed it accepts it, with echo
0x01 and the opcode as the high byte of the number. -/
def Obligations.BuiltFramesAreValidAndLoopBack : Prop :=
  ∀ (cfg : Config) (op : Op) (n : Nat) (arg : BitVec n) (f : Frame), build cfg op arg = some f →
    valid9 f = true ∧ wireOpcode op = some f.b2 ∧
      ∃ r, parse 9 f = .ok r ∧ r.echo = 0x01 ∧ r.conc.toNat = f.b2.toNat * 256 + f.b3.toNat

/-- 40_frame_codec.md R89, R90: the three checks in their order, and the fields of a reply that passes them. -/
def Obligations.ParseChecksInOrder : Prop :=
  ∀ (len : Fin 10) (r : Frame),
    (len.val < 9 → parse len r = .error .incompleteResponse) ∧
      (len.val = 9 → r.b0 ≠ 0xFF → parse len r = .error .invalidHeader) ∧
      (len.val = 9 → r.b0 = 0xFF → checksum r.toBody ≠ r.b8 → parse len r = .error .checksumMismatch) ∧
      (len.val = 9 → r.b0 = 0xFF → checksum r.toBody = r.b8 →
        ∃ x, parse len r = .ok x ∧ x.echo = r.b1 ∧ x.conc.toNat = r.b2.toNat * 256 + r.b3.toNat ∧
          x.rem.toNat = ((r.b4.toNat * 256 + r.b5.toNat) * 256 + r.b6.toNat) * 256 + r.b7.toNat ∧ x.chk = r.b8)

/-- 40_frame_codec.md R92 (b): nine bytes parse exactly when they are a valid frame. -/
def Obligations.ParseAcceptsExactlyValidFrames : Prop :=
  ∀ f : Frame, (∃ r, parse 9 f = .ok r) ↔ valid9 f = true

/-! ### Requests -/

/-- 41_transaction_engine.md R101: an idle block latches the request on its port, all eight codes alike; a busy one
latches nothing and leaves the port as it is. -/
def Obligations.AcceptLatchesRequest : Prop :=
  (∀ (op : Op) (arg : Arg) (rest : List ReqWord) (s : State), s.rst = false → s.phase = .idle →
    arg < 2 ^ s.cfg.argW → s.requests = requestWord s.cfg.argW op arg :: rest →
    reqReady s = true ∧ step s = exec (requestInstr op arg) s ∧
      exec (requestInstr op arg) s =
        .next { s with
          cmdOp := op, cmdArg := arg, attempt := 0, resValid := false, phase := .dispatch, requests := rest }) ∧
    (∀ s t : State, s.rst = false → s.phase ≠ .idle → step s = .next t →
      reqReady s = false ∧ t.requests = s.requests ∧ t.cmdOp = s.cmdOp ∧ t.cmdArg = s.cmdArg)

/-- 42_operations.md R125: `CONNECT` in `DISPATCH`, by `CONN`, and in `OPEN_WAIT`, by the reply; where it completes, in a
state that meets the invariants, it reports no Response and no attempt. -/
def Obligations.ConnectRequest : Prop :=
  ∀ (arg : Arg) (s : State), s.cmdOp = .connect →
    (s.phase = .dispatch → s.conn = .unopened →
      exec (.connect arg) s = .next { s with calls := s.calls ++ [.tOpen], phase := .openWait }) ∧
    (s.phase = .dispatch → s.conn = .opened → exec (.connect arg) s = .next (endedWithout .ok s)) ∧
    (s.phase = .dispatch → s.conn = .closed → s.cfg.reopenAllowed = true →
      exec (.connect arg) s = .next { s with calls := s.calls ++ [.tOpen], phase := .openWait }) ∧
    (s.phase = .dispatch → s.conn = .closed → s.cfg.reopenAllowed = false →
      exec (.connect arg) s = .next (endedWithout .connectionError s)) ∧
    (∀ rest, s.phase = .openWait → s.openReplies = true :: rest →
      exec (.connect arg) s = .next (endedWithout .ok { s with openReplies := rest, conn := .opened })) ∧
    (∀ rest, s.phase = .openWait → s.openReplies = false :: rest →
      exec (.connect arg) s = .next (endedWithout .connectionError { s with openReplies := rest })) ∧
    (∀ t, BlockInv s → s.phase = .dispatch ∨ s.phase = .openWait → exec (.connect arg) s = .next t →
      t.phase = .idle → t.resRspValid = false ∧ t.resPpmValid = false ∧ t.resAttempts = 0)

/-- 42_operations.md R126: `CLOSE` completes `OK` in every state, and tells the transport only when it was open. -/
def Obligations.CloseRequest : Prop :=
  ∀ (arg : Arg) (s : State), s.cmdOp = .close → s.phase = .dispatch →
    (s.conn = .opened →
      exec (.close arg) s =
        .next (endedWithout .ok { s with conn := .closed, calls := s.calls ++ [.tClose] })) ∧
    (s.conn = .closed → exec (.close arg) s = .next (endedWithout .ok s)) ∧
    (s.conn = .unopened → exec (.close arg) s = .next (endedWithout .ok s)) ∧
    (∀ t, BlockInv s → exec (.close arg) s = .next t →
      t.phase = .idle ∧ t.resStatus = .ok ∧ t.resRspValid = false ∧ t.resPpmValid = false ∧ t.resAttempts = 0)

/-- 42_operations.md R127: the reserved request completes with `InvalidArgument`, whatever `CONN` is, and changes
nothing but the result registers. -/
def Obligations.ReservedRequest : Prop :=
  ∀ (arg : Arg) (s : State), s.phase = .dispatch →
    exec (.reserved7 arg) s = .next (endedWithout .invalidArgument s) ∧
      ∀ t, BlockInv s → exec (.reserved7 arg) s = .next t →
        t.calls = s.calls ∧ t.conn = s.conn ∧ t.resRspValid = false ∧ t.resPpmValid = false ∧ t.resAttempts = 0

/-- 41_transaction_engine.md R102 with 40_frame_codec.md R83 to R87: an open block puts the frame of a sensor command
with a valid argument into `TXBUF`, issues one `TWrite` of it and waits; nothing else changes. -/
def Obligations.SensorCommandSendsItsFrame : Prop :=
  ∀ (arg : Arg) (s : State), s.phase = .dispatch → s.conn = .opened → arg < 2 ^ s.cfg.argW →
    exec (.readCo2 arg) s = .next (handedOver (bytes9 0xFF 0x01 0x86 0x00 0x00 0x00 0x00 0x00 0x79) s) ∧
      exec (.zeroCal arg) s = .next (handedOver (bytes9 0xFF 0x01 0x87 0x00 0x00 0x00 0x00 0x00 0x78) s) ∧
      (∀ hi lo : Byte, arg = hi.toNat * 256 + lo.toNat →
        exec (.spanCal arg) s = .next (handedOver (bytes9 0xFF 0x01 0x88 hi lo 0x00 0x00 0x00 (0x77 - hi - lo)) s)) ∧
      (arg % 2 = 1 →
        exec (.setAbc arg) s = .next (handedOver (bytes9 0xFF 0x01 0x79 0xA0 0x00 0x00 0x00 0x00 0xE6) s)) ∧
      (arg % 2 = 0 →
        exec (.setAbc arg) s = .next (handedOver (bytes9 0xFF 0x01 0x79 0x00 0x00 0x00 0x00 0x00 0x86) s)) ∧
      (∀ r ∈ s.cfg.rangeSet, r.toNat = arg → ∀ hi lo : Byte, arg = hi.toNat * 256 + lo.toNat →
        exec (.setRange arg) s = .next (handedOver (bytes9 0xFF 0x01 0x99 hi lo 0x00 0x00 0x00 (0x66 - hi - lo)) s))

/-- 60_exceptions.md R146 (a), (b), R147: a bad argument ends the command with `InvalidArgument` whatever `CONN` is
(that this check comes first is the spec's own decision D10, log 16); a good one on a connection that is not open ends
it with `NotConnected`. No call is issued. At every legal `ARG_W` a bad argument of `SPAN_CAL` can be presented
(00_scope.md R4, 92_eei_decisions.md D4). -/
def Obligations.SensorCommandTurnedAway : Prop :=
  (∀ (op : Op) (arg : Arg) (s : State), isSensor op = true → s.phase = .dispatch → arg < 2 ^ s.cfg.argW →
    (op = .spanCal → 65535 < arg →
      exec (requestInstr op arg) s = .next (endedWithout .invalidArgument s)) ∧
    (op = .setRange → (∀ r ∈ s.cfg.rangeSet, r.toNat ≠ arg) →
      exec (requestInstr op arg) s = .next (endedWithout .invalidArgument s)) ∧
    ((op = .spanCal → arg ≤ 65535) → (op = .setRange → ∃ r ∈ s.cfg.rangeSet, r.toNat = arg) → s.conn ≠ .opened →
      exec (requestInstr op arg) s = .next (endedWithout .notConnected s))) ∧
    ∀ cfg : Config, cfg.Legal → argFits cfg.argW (.spanCal 65536) = true

/-- 30_encoding.md R64, R66 (b): argument bits that an operation does not use make no difference to its `DISPATCH`
step. -/
def Obligations.UnusedArgumentBitsIgnored : Prop :=
  ∀ (op : Op) (a b : Arg) (s : State), s.phase = .dispatch → op ≠ .spanCal → op ≠ .setRange →
    (op = .setAbc → a % 2 = b % 2) →
    exec (requestInstr op a) s = exec (requestInstr op b) s

/-- 41_transaction_engine.md R103: `WRITE_DONE`. What comes with an `Error` makes no difference. -/
def Obligations.WriteDoneStep : Prop :=
  ∀ (op : Op) (arg : Arg) (s : State) (rest : List WriteReply), s.phase = .writeWait →
    (∀ n, s.writeReplies = .error n :: rest →
      exec (requestInstr op arg) s = .next (endedWithout .transportError { s with writeReplies := rest })) ∧
    (∀ n, s.writeReplies = .count n :: rest → n.val < 9 →
      exec (requestInstr op arg) s = .next (endedWithout .partialWrite { s with writeReplies := rest })) ∧
    (∀ n, s.writeReplies = .count n :: rest → n.val = 9 →
      exec (requestInstr op arg) s = .next { s with
        writeReplies := rest, attempt := 1, calls := s.calls ++ [.tRead], phase := .readWait })

/-- 41_transaction_engine.md R104: `READ_DONE`, the retry loop. What comes with a `Timeout` or an `Error` makes no
difference. -/
def Obligations.ReadDoneStep : Prop :=
  ∀ (op : Op) (arg : Arg) (s : State) (rest : List ReadReply), s.phase = .readWait →
    (∀ n f, s.readReplies = .timeout n f :: rest → s.attempt.toNat < 3 →
      exec (requestInstr op arg) s = .next { s with
        readReplies := rest, attempt := s.attempt + 1, calls := s.calls ++ [.tRead], phase := .readWait }) ∧
    (∀ n f, s.readReplies = .timeout n f :: rest → s.attempt.toNat = 3 →
      exec (requestInstr op arg) s = .next (endedWithout .readFailed { s with readReplies := rest })) ∧
    (∀ n f, s.readReplies = .error n f :: rest →
      exec (requestInstr op arg) s = .next (endedWithout .transportError { s with readReplies := rest })) ∧
    (∀ n f, s.readReplies = .data n f :: rest → n.val < 9 →
      exec (requestInstr op arg) s = .next (endedWithout .incompleteResponse { s with readReplies := rest })) ∧
    (∀ n f, s.readReplies = .data n f :: rest → n.val = 9 →
      exec (requestInstr op arg) s = .next { s with
        readReplies := rest, rxbuf := f, rxlen := 9, phase := .parse })

/-- 41_transaction_engine.md R105: `PARSE`, for every sensor command, on nine reply bytes. -/
def Obligations.ParseStep : Prop :=
  ∀ (op : Op) (arg : Arg) (s : State), isSensor s.cmdOp = true → s.phase = .parse → s.rxlen = 9 →
    (s.rxbuf.b0 ≠ 0xFF → exec (requestInstr op arg) s = .next (endedWithout .invalidHeader s)) ∧
    (s.rxbuf.b0 = 0xFF → checksum s.rxbuf.toBody ≠ s.rxbuf.b8 →
      exec (requestInstr op arg) s = .next (endedWithout .checksumMismatch s)) ∧
    (s.rxbuf.b0 = 0xFF → checksum s.rxbuf.toBody = s.rxbuf.b8 →
      exec (requestInstr op arg) s =
        .next (endedWith (s.cmdOp == .readCo2)
          { echo := s.rxbuf.b1, conc := s.rxbuf.b2 ++ s.rxbuf.b3,
            rem := s.rxbuf.b4 ++ s.rxbuf.b5 ++ s.rxbuf.b6 ++ s.rxbuf.b7, chk := s.rxbuf.b8 } s))

/-- 41_transaction_engine.md R106: what `complete` writes, for every status, with and without a Response. -/
def Obligations.CompleteWritesResults : Prop :=
  ∀ (st : Status) (s : State),
    (st ≠ .ok ∨ isSensor s.cmdOp = false → complete st none s = endedWithout st s) ∧
      (∀ r, isSensor s.cmdOp = true → complete .ok (some r) s = endedWith (s.cmdOp == .readCo2) r s)

/-! ### Frames as instructions -/

/-- 40_frame_codec.md R83 to R87 with 41_transaction_engine.md R102: a command frame, built in `DISPATCH` on an open
connection, goes into `TXBUF` with its computed checksum and out in one `TWrite`; on a connection that is not open it ends
with `NotConnected`, and a range outside `RANGE_SET` ends with `InvalidArgument` whatever `CONN` is (log 16). The meaning
of a frame row in each phase is the model's reading (log 15). -/
def Obligations.CommandFrameIsHandedOver : Prop :=
  ∀ (chk : Byte) (s : State), s.phase = .dispatch →
    (s.conn = .opened →
      exec (.frameReadCo2 chk) s = .next (handedOver (bytes9 0xFF 0x01 0x86 0x00 0x00 0x00 0x00 0x00 0x79) s) ∧
      exec (.frameZeroCal chk) s = .next (handedOver (bytes9 0xFF 0x01 0x87 0x00 0x00 0x00 0x00 0x00 0x78) s) ∧
      (∀ hi lo : Byte, exec (.frameSpanCal (hi ++ lo) chk) s =
        .next (handedOver (bytes9 0xFF 0x01 0x88 hi lo 0x00 0x00 0x00 (0x77 - hi - lo)) s)) ∧
      exec (.frameSetAbc true chk) s = .next (handedOver (bytes9 0xFF 0x01 0x79 0xA0 0x00 0x00 0x00 0x00 0xE6) s) ∧
      exec (.frameSetAbc false chk) s = .next (handedOver (bytes9 0xFF 0x01 0x79 0x00 0x00 0x00 0x00 0x00 0x86) s) ∧
      (∀ hi lo : Byte, hi ++ lo ∈ s.cfg.rangeSet → exec (.frameSetRange (hi ++ lo) chk) s =
        .next (handedOver (bytes9 0xFF 0x01 0x99 hi lo 0x00 0x00 0x00 (0x66 - hi - lo)) s))) ∧
    (s.conn ≠ .opened →
      exec (.frameReadCo2 chk) s = .next (endedWithout .notConnected s) ∧
      exec (.frameZeroCal chk) s = .next (endedWithout .notConnected s) ∧
      (∀ ppm, exec (.frameSpanCal ppm chk) s = .next (endedWithout .notConnected s)) ∧
      (∀ enabled, exec (.frameSetAbc enabled chk) s = .next (endedWithout .notConnected s)) ∧
      (∀ range ∈ s.cfg.rangeSet, exec (.frameSetRange range chk) s = .next (endedWithout .notConnected s))) ∧
    (∀ range, range ∉ s.cfg.rangeSet →
      exec (.frameSetRange range chk) s = .next (endedWithout .invalidArgument s))

/-- The model's reading, log 15: a command frame in flight does what the request in progress does, `WRITE_DONE`
(41_transaction_engine.md R103), and so answers a next state; which request and which frame it is makes no difference. -/
def Obligations.CommandFrameInFlight : Prop :=
  ∀ (i : Instr) (f : Frame) (op : Op) (arg : Arg) (s : State), encode s.cfg.argW i = .cmd9 f → s.phase = .writeWait →
    exec i s = exec (requestInstr op arg) s ∧ ∃ t, exec i s = .next t

/-- The command rows are the requests' own frames: in `DISPATCH`, whatever `CONN` is, a sensor command that builds a frame
does what that command frame does; on a connection that is not open both end with `NotConnected`, and a command that
builds no frame ends with `InvalidArgument` (41_transaction_engine.md R102; log 15, log 16). -/
def Obligations.RequestRunsTheFrameItBuilds : Prop :=
  ∀ (op : Op) (arg : Arg) (s : State), isSensor op = true → s.phase = .dispatch →
    (∀ f, buildRequest s.cfg op arg = some f →
      (∃ i, decodeCommand f = .ok i ∧ exec (requestInstr op arg) s = exec i s) ∧
        (s.conn ≠ .opened → exec (requestInstr op arg) s = .next (endedWithout .notConnected s))) ∧
    (buildRequest s.cfg op arg = none →
      exec (requestInstr op arg) s = .next (endedWithout .invalidArgument s))

/-- 41_transaction_engine.md R104, R105 with 40_frame_codec.md R89: the reply frame is taken in `READ_WAIT` and judged
in `PARSE`. -/
def Obligations.ReplyFrameIsTakenAndJudged : Prop :=
  ∀ (echo : Byte) (hi lo r0 r1 r2 r3 chk : Byte) (s : State) (f : Frame),
    f = bytes9 0xFF echo hi lo r0 r1 r2 r3 chk →
    (s.phase = .readWait →
      exec (.frameResponse echo (hi ++ lo) (r0 ++ r1 ++ r2 ++ r3) chk) s =
        .next { s with readReplies := s.readReplies.tail, rxbuf := f, rxlen := 9, phase := .parse }) ∧
    (s.phase = .parse → checksum f.toBody ≠ chk →
      exec (.frameResponse echo (hi ++ lo) (r0 ++ r1 ++ r2 ++ r3) chk) s =
        .next (endedWithout .checksumMismatch s)) ∧
    (s.phase = .parse → checksum f.toBody = chk → isSensor s.cmdOp = true →
      exec (.frameResponse echo (hi ++ lo) (r0 ++ r1 ++ r2 ++ r3) chk) s =
        .next (endedWith (s.cmdOp == .readCo2)
          { echo := echo, conc := hi ++ lo, rem := r0 ++ r1 ++ r2 ++ r3, chk := chk } s))

/-- The model's choice, log 15: a frame that is neither being built, nor in flight, nor awaited does nothing
(40_frame_codec.md R93, 70_reset_and_hazards.md R172). -/
def Obligations.FrameOutOfPlaceDoesNothing : Prop :=
  ∀ (i : Instr) (s : State),
    ((∃ f, encode s.cfg.argW i = .cmd9 f) → s.phase ≠ .dispatch → s.phase ≠ .writeWait → exec i s = .next s) ∧
    ((∃ f, encode s.cfg.argW i = .rsp9 f) → s.phase ≠ .readWait → s.phase ≠ .parse → exec i s = .next s)

/-! ### Laws of the engine -/

/-- 41_transaction_engine.md R111: no step of a sensor command changes `CONN` or closes the transport, whether the command
succeeds or fails. -/
def Obligations.SensorCommandKeepsConn : Prop :=
  ∀ s t : State, BlockInv s → s.rst = false → s.phase ≠ .idle → isSensor s.cmdOp = true → step s = .next t →
    t.conn = s.conn ∧ closeCount t.calls = closeCount s.calls

/-- 42_operations.md R128 (b), 20_memory.md R47: a step tells the transport to close exactly when it takes `CONN` from
`Open` to `Closed`. -/
def Obligations.CloseCallIsTheClosing : Prop :=
  ∀ s t : State, step s = .next t → (t.calls = s.calls ++ [.tClose] ↔ s.conn = .opened ∧ t.conn = .closed)

/-- 10_state.md R23, 20_memory.md R51: a step issues at most one call, and the phase it goes to is the one that waits
for that call's reply; no step that goes to another phase issues such a call. -/
def Obligations.OneCallAndItsPhase : Prop :=
  ∀ s t : State, step s = .next t →
    t.calls = s.calls ∨
      (t.calls = s.calls ++ [.tOpen] ∧ s.phase = .dispatch ∧ t.phase = .openWait) ∨
      (t.calls = s.calls ++ [.tWrite t.txbuf] ∧ s.phase = .dispatch ∧ t.phase = .writeWait) ∨
      (t.calls = s.calls ++ [.tRead] ∧ (s.phase = .writeWait ∨ s.phase = .readWait) ∧ t.phase = .readWait) ∨
      (t.calls = s.calls ++ [.tClose] ∧ s.phase = .dispatch ∧ t.phase = .idle)

/-- 41_transaction_engine.md R106, 10_state.md R24 (g): with `RST` low, a step emits a completion exactly when it
returns to `IDLE`; it is then the record of the result registers, and `RES_VALID` is set; a step that stays in
`IDLE` leaves `RES_VALID` as it was. -/
def Obligations.ReturnToIdleIsOneCompletion : Prop :=
  ∀ s t : State, s.rst = false → step s = .next t →
    (s.phase ≠ .idle ∧ t.phase = .idle ∧ t.completions = s.completions ++ [recordOf t] ∧ t.resValid = true) ∨
      (t.completions = s.completions ∧ (t.phase = .idle → s.phase = .idle ∧ t.resValid = s.resValid))

/-- 60_exceptions.md R152: a step that ends a request with an error writes the status and the flags, becomes ready, and
leaves `CONN`, both buffers and the Response registers as they were; it makes no call. -/
def Obligations.ErrorCompletionLeavesTheRest : Prop :=
  ∀ s t : State, s.rst = false → s.phase ≠ .idle → step s = .next t → t.phase = .idle → t.resStatus ≠ .ok →
    t.resValid = true ∧ t.resRspValid = false ∧ t.resPpmValid = false ∧ t.resAttempts = s.attempt ∧
      t.conn = s.conn ∧ t.txbuf = s.txbuf ∧ t.rxbuf = s.rxbuf ∧ t.rxlen = s.rxlen ∧ t.resEcho = s.resEcho ∧
      t.resConc = s.resConc ∧ t.resRem = s.resRem ∧ t.resChk = s.resChk ∧ t.calls = s.calls ∧
      t.completions = s.completions ++ [⟨t.resStatus, s.attempt, false, false, none⟩]

/-- 10_state.md R15, R16: `TXBUF` is written only by the dispatch that builds and sends its frame, `RXBUF` only by the
`Data` reply of nine bytes that ends the read loop. -/
def Obligations.BufferWriters : Prop :=
  ∀ s t : State, s.rst = false → step s = .next t →
    (t.txbuf ≠ s.txbuf → s.phase = .dispatch ∧ buildRequest s.cfg s.cmdOp s.cmdArg = some t.txbuf) ∧
    (t.rxbuf ≠ s.rxbuf → s.phase = .readWait ∧ ∃ rest, s.readReplies = .data 9 t.rxbuf :: rest)

/-- 60_exceptions.md R145, 41_transaction_engine.md R107 (a), (b), (d): three timeouts in a row end the command with
`ReadFailed` and three attempts; two more reads are issued and no further write. -/
def Obligations.ThreeTimeoutsEndInReadFailed : Prop :=
  ∀ (s : State) (n1 n2 n3 : BitVec 4) (f1 f2 f3 : Frame) (rest : List ReadReply), s.rst = false →
    s.phase = .readWait → s.attempt = 1 →
    s.readReplies = .timeout n1 f1 :: .timeout n2 f2 :: .timeout n3 f3 :: rest →
    Host.Core.run Sys2Proof.core 3 s =
      .next (endedWithout .readFailed
        { s with attempt := 3, calls := s.calls ++ [.tRead, .tRead], readReplies := rest })

/-- 41_transaction_engine.md R110, R112, 42_operations.md R125 to R127, R129, 70_reset_and_hazards.md R182: every
request whose calls are answered (the answers listed in advance in their order: log 8) runs, in two to seven steps, to
the result of the big-step form: its status, attempts and Response in one completion, its transport calls in order, its
connection state, and exactly the replies that decide it consumed. Where a bad argument meets a connection that is not
open, the status is `InvalidArgument`: the spec's own decision D10 (92_eei_decisions.md), log 16. -/
def Obligations.RequestRunsToItsResult : Prop :=
  ∀ (s : State) (op : Op) (arg : Arg) (rest : List ReqWord) (r : Result), s.rst = false → s.phase = .idle →
    s.requests = requestWord s.cfg.argW op arg :: rest →
    resultOf s.cfg s.conn op arg s.openReplies s.writeReplies s.readReplies = some r →
    ∃ k t, 2 ≤ k ∧ k ≤ 7 ∧ Host.Core.run Sys2Proof.core k s = .next t ∧ t.phase = .idle ∧ t.conn = r.conn ∧
      t.resValid = true ∧ t.requests = rest ∧ t.cfg = s.cfg ∧ t.rst = false ∧
      t.calls = s.calls ++ r.calls ∧ r.calls.length ≤ 4 ∧ t.completions = s.completions ++ [completionOf op r] ∧
      recordOf t = completionOf op r ∧
      t.openReplies = s.openReplies.drop (openCount r.calls) ∧
      t.writeReplies = s.writeReplies.drop (r.calls.countP fun c => c matches .tWrite _) ∧
      t.readReplies = s.readReplies.drop r.attempts

/-- 70_reset_and_hazards.md R181: a request one of whose calls is never answered (the answers that come are listed in
advance in their order: log 8) never completes, however long the block runs. -/
def Obligations.UnansweredRequestNeverCompletes : Prop :=
  ∀ (s : State) (op : Op) (arg : Arg) (rest : List ReqWord), s.rst = false → s.phase = .idle →
    s.requests = requestWord s.cfg.argW op arg :: rest →
    resultOf s.cfg s.conn op arg s.openReplies s.writeReplies s.readReplies = none →
    ∀ k t, Host.Core.run Sys2Proof.core k s = .next t → t.completions = s.completions

/-- 42_operations.md R128, 41_transaction_engine.md R111: after a successful connect, a body of requests with no close
in it and then one close, run until the block is idle with no request left, close the transport exactly once, whatever the
statuses in between; the run is then over (70_reset_and_hazards.md R184, log 20). The requests and the answers are listed
in advance in their order: log 8. -/
def Obligations.ScopedFormClosesExactlyOnce : Prop :=
  ∀ (s : State) (body : List ReqWord) (arg : Arg) (k : Nat) (t : State), s.rst = false → s.phase = .idle →
    s.conn = .opened → s.requests = body ++ [requestWord s.cfg.argW .close arg] →
    (∀ w ∈ body, wordOp s.cfg.argW w ≠ .close) →
    Host.Core.run Sys2Proof.core k s = .next t → t.phase = .idle → t.requests = [] →
    closeCount t.calls = closeCount s.calls + 1 ∧ t.conn = .closed ∧ RunOver t

/-- 20_memory.md R47, 42_operations.md R128 (b): every step keeps it that the transport has been told to close at most as
often as it was asked to open, with one open to spare while the connection is open or being opened; and so in every
reachable state it has been told to close at most as often as it was asked to open. -/
def Obligations.ClosesNeverOutnumberOpens : Prop :=
  (∀ s t : State, BlockInv s → CallsBalance s → step s = .next t → CallsBalance t) ∧
    ∀ (cfg : Config) (s : State), Reachable cfg s → closeCount s.calls ≤ openCount s.calls

/-- 30_encoding.md R65, R66 (c): every step keeps it that every frame ever handed to the transport is one that the codec
builds for a sensor command, and so a well-formed command frame: no other opcode, address or data; and so it is in every
reachable state, whatever the host and the transport do. -/
def Obligations.WireCarriesOnlyCommandFrames : Prop :=
  (∀ s t : State, WireClean s → step s = .next t → WireClean t) ∧
    ∀ (cfg : Config) (s : State), Reachable cfg s → WireClean s

/-- 41_transaction_engine.md R109, 40_frame_codec.md R93: what earlier requests left behind does not matter. Two idle
blocks with the same parameters, connection state and inputs emit the same completions and issue the same calls, step
for step, whatever their buffers, result registers and counters hold. Requests and replies are listed in advance in their
order: log 8. -/
def Obligations.HistoryDoesNotMatter : Prop :=
  ∀ (a b : State), a.rst = false → b.rst = false → a.phase = .idle → b.phase = .idle → a.cfg = b.cfg →
    a.conn = b.conn → a.requests = b.requests → a.openReplies = b.openReplies →
    a.writeReplies = b.writeReplies → a.readReplies = b.readReplies →
    ∀ (k : Nat) (t u : State), Host.Core.run Sys2Proof.core k a = .next t →
      Host.Core.run Sys2Proof.core k b = .next u →
      t.conn = u.conn ∧ t.phase = u.phase ∧
        ∃ cs ks, t.completions = a.completions ++ cs ∧ u.completions = b.completions ++ cs ∧
          t.calls = a.calls ++ ks ∧ u.calls = b.calls ++ ks

/-! ### The ports -/

/-- 10_state.md R18, 93_implementation_defined.md U1: a Response register is absent for the host while `RES_RSP_VALID` = 0,
with no default, and reads as it stands while it is 1; the other result registers always read as they stand. That they do
so while `RES_VALID` = 0, when what they hold means nothing (R18, R25), is the model's choice: log 19. -/
def Obligations.HostReadsOnlyHeldValues : Prop :=
  ∀ s : State,
    (hostRead .valid s = some (bit s.resValid) ∧ hostRead .status s = some (statusCode s.resStatus).toNat ∧
      hostRead .attempts s = some s.resAttempts.toNat ∧ hostRead .rspValid s = some (bit s.resRspValid) ∧
      hostRead .ppmValid s = some (bit s.resPpmValid)) ∧
      (s.resRspValid = false → ∀ r, r = .echo ∨ r = .conc ∨ r = .rem ∨ r = .chk → hostRead r s = none) ∧
      (s.resRspValid = true → hostRead .echo s = some s.resEcho.toNat ∧ hostRead .conc s = some s.resConc.toNat ∧
        hostRead .rem s = some s.resRem.toNat ∧ hostRead .chk s = some s.resChk.toNat)

/-- 20_memory.md R44, R45, 93_implementation_defined.md U5, U6: exactly the reserved reply codes are refused; what a
reply's unused fields hold is taken as it comes (U10). -/
def Obligations.ReservedRepliesRefused : Prop :=
  ∀ (s : State) (len : BitVec 4) (f : Frame),
    (∀ k : BitVec 1, answerWrite k len s = .refused .reservedWriteReply ↔ k = 0 ∧ 9 < len.toNat) ∧
      (∀ k : BitVec 2, answerRead k len f s = .refused .reservedReadReply ↔ k = 3 ∨ (k = 0 ∧ 9 < len.toNat))

/-- 20_memory.md R44 to R46, R54 and 70_reset_and_hazards.md R172: a legal reply, any one, to the outstanding call goes on
that call's channel, and nothing else changes; a reply to a call that is no longer outstanding is dropped, and so is a
second reply to one call (30_encoding.md R69; log 8). -/
def Obligations.LateReplyDropped : Prop :=
  ∀ (s t : State) (ready : Bool) (k1 : BitVec 1) (k2 : BitVec 2) (len : BitVec 4) (f : Frame),
    (s.phase = .openWait → s.openReplies = [] → answerOpen ready s = { s with openReplies := [ready] }) ∧
      (s.phase = .writeWait → s.writeReplies = [] →
        (∀ n : Fin 10, len.toNat = n.val → answerWrite 0 len s = .next { s with writeReplies := [.count n] }) ∧
        answerWrite 1 len s = .next { s with writeReplies := [.error len] }) ∧
      (s.phase = .readWait → s.readReplies = [] →
        (∀ n : Fin 10, len.toNat = n.val → answerRead 0 len f s = .next { s with readReplies := [.data n f] }) ∧
        answerRead 1 len f s = .next { s with readReplies := [.timeout len f] } ∧
        answerRead 2 len f s = .next { s with readReplies := [.error len f] }) ∧
      (s.phase ≠ .openWait ∨ s.openReplies ≠ [] → answerOpen ready s = s) ∧
      (s.phase ≠ .writeWait ∨ s.writeReplies ≠ [] → answerWrite k1 len s = .next t → t = s) ∧
      (s.phase ≠ .readWait ∨ s.readReplies ≠ [] → answerRead k2 len f s = .next t → t = s)
end

