-- ==== Sys2Proof/Laws/Encoding.lean ====
section
/-! SUPPORT. The bit fields of the encodings: what is put together comes apart again, piece by piece. -/

namespace Sys2Proof

open Machine

@[simp] theorem opOfCode_opCode (op : Op) : opOfCode (opCode op) = op := by cases op <;> rfl

@[simp] theorem opCode_opOfCode (c : BitVec 3) : opCode (opOfCode c) = c := by
  revert c; decide

/-- The high part of a concatenation. -/
theorem extract_append_high {n m : Nat} (x : BitVec n) (y : BitVec m) : (x ++ y).extractLsb' m n = x := by
  apply BitVec.eq_of_getLsbD_eq
  intro i hi
  simp [BitVec.getLsbD_append, hi]

/-- The low part of a concatenation. -/
theorem extract_append_low {n m : Nat} (x : BitVec n) (y : BitVec m) : (x ++ y).extractLsb' 0 m = y := by
  apply BitVec.eq_of_getLsbD_eq
  intro i hi
  simp [BitVec.getLsbD_append, hi]

/-- A field that lies within the low part of a concatenation. -/
theorem extract_append_of_le {n m k w : Nat} (x : BitVec n) (y : BitVec m) (h : k + w ≤ m) :
    (x ++ y).extractLsb' k w = y.extractLsb' k w := by
  apply BitVec.eq_of_getLsbD_eq
  intro i hi
  simp [BitVec.getLsbD_append, hi, show k + i < m by omega]

/-- A field that lies within the high part of a concatenation. -/
theorem extract_append_of_ge {n m k w : Nat} (x : BitVec n) (y : BitVec m) (h : m ≤ k) :
    (x ++ y).extractLsb' k w = x.extractLsb' (k - m) w := by
  apply BitVec.eq_of_getLsbD_eq
  intro i hi
  simp [BitVec.getLsbD_append, hi, show ¬ k + i < m by omega, show k + i - m = k - m + i by omega]

/-- A value is its high part followed by its low part. -/
theorem append_extract {n m : Nat} (w : BitVec (n + m)) : w.extractLsb' m n ++ w.extractLsb' 0 m = w := by simp

@[simp] theorem requestOp_packRequest {n : Nat} (op : Op) (arg : BitVec n) : requestOp (packRequest op arg) = op := by
  simp [requestOp, packRequest, extract_append_high]

@[simp] theorem requestArg_packRequest {n : Nat} (op : Op) (arg : BitVec n) :
    requestArg (packRequest op arg) = arg := by
  simp [requestArg, packRequest, extract_append_low]

/-- An argument on `ARG_W` wires is its value modulo `2 ^ ARG_W`. -/
@[simp] theorem toNat_argBits (argW : Nat) (arg : Arg) : (argBits argW arg).toNat = arg % 2 ^ argW := by
  simp [argBits]

@[simp] theorem wordOp_requestWord (argW : Nat) (op : Op) (arg : Arg) : wordOp argW (requestWord argW op arg) = op := by
  simp [wordOp, requestWord]

@[simp] theorem wordArg_requestWord (argW : Nat) (op : Op) (arg : Arg) :
    wordArg argW (requestWord argW op arg) = arg % 2 ^ argW := by
  simp [wordArg, requestWord]

/-- The argument of a word fits in `ARG_W` bits. -/
theorem wordArg_lt (argW : Nat) (w : ReqWord) : wordArg argW w < 2 ^ argW := BitVec.isLt _

/-- A request word fits on its port. -/
theorem requestWord_lt (argW : Nat) (op : Op) (arg : Arg) : requestWord argW op arg < 2 ^ (3 + argW) := BitVec.isLt _

/-- A word that fits on its port is the request word of its two fields. -/
theorem requestWord_word {argW : Nat} {w : ReqWord} (h : w < 2 ^ (3 + argW)) :
    requestWord argW (wordOp argW w) (wordArg argW w) = w := by
  simp only [requestWord, wordOp, wordArg, packRequest, requestOp, requestArg, opCode_opOfCode, argBits,
    BitVec.ofNat_toNat, BitVec.setWidth_eq, append_extract]
  simpa using Nat.mod_eq_of_lt h

@[simp] theorem hi8_be16 (a b : Byte) : hi8 (be16 a b) = a := extract_append_high a b

@[simp] theorem lo8_be16 (a b : Byte) : lo8 (be16 a b) = b := extract_append_low a b

@[simp] theorem be16_hi8_lo8 (v : BitVec 16) : be16 (hi8 v) (lo8 v) = v := append_extract (n := 8) (m := 8) v

@[simp] theorem be32_byte3 (a b c d : Byte) : (be32 a b c d).extractLsb' 24 8 = a := by
  apply BitVec.eq_of_getLsbD_eq
  intro i hi
  simp only [be32, BitVec.getLsbD_append, BitVec.getLsbD_extractLsb', hi]
  simp [show ¬ 24 + i < 8 by omega, show ¬ 24 + i - 8 < 8 by omega, show ¬ 24 + i - 8 - 8 < 8 by omega,
    show 24 + i - 8 - 8 - 8 = i by omega]

@[simp] theorem be32_byte2 (a b c d : Byte) : (be32 a b c d).extractLsb' 16 8 = b := by
  apply BitVec.eq_of_getLsbD_eq
  intro i hi
  simp only [be32, BitVec.getLsbD_append, BitVec.getLsbD_extractLsb', hi]
  simp [show ¬ 16 + i < 8 by omega, show ¬ 16 + i - 8 < 8 by omega, show 16 + i - 8 - 8 = i by omega]
  omega

@[simp] theorem be32_byte1 (a b c d : Byte) : (be32 a b c d).extractLsb' 8 8 = c := by
  apply BitVec.eq_of_getLsbD_eq
  intro i hi
  simp only [be32, BitVec.getLsbD_append, BitVec.getLsbD_extractLsb', hi]
  simp [hi]

@[simp] theorem be32_byte0 (a b c d : Byte) : (be32 a b c d).extractLsb' 0 8 = d := by
  apply BitVec.eq_of_getLsbD_eq
  intro i hi
  simp only [be32, BitVec.getLsbD_append, BitVec.getLsbD_extractLsb', hi]
  simp [hi]

/-- The four bytes of a 32-bit value, put together again. -/
theorem be32_bytes (v : BitVec 32) :
    be32 (v.extractLsb' 24 8) (v.extractLsb' 16 8) (v.extractLsb' 8 8) (v.extractLsb' 0 8) = v := by
  apply BitVec.eq_of_getLsbD_eq
  intro i hi
  simp only [be32, BitVec.getLsbD_append, BitVec.getLsbD_extractLsb']
  split
  · simp_all
  · split
    · rw [show 8 + (i - 8) = i by omega]; simp; omega
    · split
      · rw [show 16 + (i - 8 - 8) = i by omega]; simp; omega
      · rw [show 24 + (i - 8 - 8 - 8) = i by omega]; simp; omega

end Sys2Proof
end

