-- ==== Sys2Proof/Laws/State.lean ====
section
/-! SUPPORT. For each operation that updates the state, what each field of the result is. All true by rfl, so that no
proof unfolds a record update. -/

namespace Sys2Proof.Machine

@[simp] theorem issue_conn (c : Call) (s : State) : (issue c s).conn = s.conn := rfl
@[simp] theorem issue_phase (c : Call) (s : State) : (issue c s).phase = s.phase := rfl
@[simp] theorem issue_attempt (c : Call) (s : State) : (issue c s).attempt = s.attempt := rfl
@[simp] theorem issue_cmdOp (c : Call) (s : State) : (issue c s).cmdOp = s.cmdOp := rfl
@[simp] theorem issue_cmdArg (c : Call) (s : State) : (issue c s).cmdArg = s.cmdArg := rfl
@[simp] theorem issue_txbuf (c : Call) (s : State) : (issue c s).txbuf = s.txbuf := rfl
@[simp] theorem issue_rxbuf (c : Call) (s : State) : (issue c s).rxbuf = s.rxbuf := rfl
@[simp] theorem issue_rxlen (c : Call) (s : State) : (issue c s).rxlen = s.rxlen := rfl
@[simp] theorem issue_resValid (c : Call) (s : State) : (issue c s).resValid = s.resValid := rfl
@[simp] theorem issue_resStatus (c : Call) (s : State) : (issue c s).resStatus = s.resStatus := rfl
@[simp] theorem issue_resAttempts (c : Call) (s : State) : (issue c s).resAttempts = s.resAttempts := rfl
@[simp] theorem issue_resRspValid (c : Call) (s : State) : (issue c s).resRspValid = s.resRspValid := rfl
@[simp] theorem issue_resPpmValid (c : Call) (s : State) : (issue c s).resPpmValid = s.resPpmValid := rfl
@[simp] theorem issue_resEcho (c : Call) (s : State) : (issue c s).resEcho = s.resEcho := rfl
@[simp] theorem issue_resConc (c : Call) (s : State) : (issue c s).resConc = s.resConc := rfl
@[simp] theorem issue_resRem (c : Call) (s : State) : (issue c s).resRem = s.resRem := rfl
@[simp] theorem issue_resChk (c : Call) (s : State) : (issue c s).resChk = s.resChk := rfl
@[simp] theorem issue_cfg (c : Call) (s : State) : (issue c s).cfg = s.cfg := rfl
@[simp] theorem issue_rst (c : Call) (s : State) : (issue c s).rst = s.rst := rfl
@[simp] theorem issue_requests (c : Call) (s : State) : (issue c s).requests = s.requests := rfl
@[simp] theorem issue_openReplies (c : Call) (s : State) : (issue c s).openReplies = s.openReplies := rfl
@[simp] theorem issue_writeReplies (c : Call) (s : State) : (issue c s).writeReplies = s.writeReplies := rfl
@[simp] theorem issue_readReplies (c : Call) (s : State) : (issue c s).readReplies = s.readReplies := rfl
@[simp] theorem issue_calls (c : Call) (s : State) : (issue c s).calls = s.calls ++ [c] := rfl
@[simp] theorem issue_completions (c : Call) (s : State) : (issue c s).completions = s.completions := rfl
@[simp] theorem issue_resets (c : Call) (s : State) : (issue c s).resets = s.resets := rfl

@[simp] theorem complete_conn (st : Status) (r : Option Response) (s : State) : (complete st r s).conn = s.conn := rfl
@[simp] theorem complete_phase (st : Status) (r : Option Response) (s : State) :
    (complete st r s).phase = .idle := rfl
@[simp] theorem complete_attempt (st : Status) (r : Option Response) (s : State) :
    (complete st r s).attempt = s.attempt := rfl
@[simp] theorem complete_cmdOp (st : Status) (r : Option Response) (s : State) :
    (complete st r s).cmdOp = s.cmdOp := rfl
@[simp] theorem complete_cmdArg (st : Status) (r : Option Response) (s : State) :
    (complete st r s).cmdArg = s.cmdArg := rfl
@[simp] theorem complete_txbuf (st : Status) (r : Option Response) (s : State) :
    (complete st r s).txbuf = s.txbuf := rfl
@[simp] theorem complete_rxbuf (st : Status) (r : Option Response) (s : State) :
    (complete st r s).rxbuf = s.rxbuf := rfl
@[simp] theorem complete_rxlen (st : Status) (r : Option Response) (s : State) :
    (complete st r s).rxlen = s.rxlen := rfl
@[simp] theorem complete_resValid (st : Status) (r : Option Response) (s : State) :
    (complete st r s).resValid = true := rfl
@[simp] theorem complete_resStatus (st : Status) (r : Option Response) (s : State) :
    (complete st r s).resStatus = st := rfl
@[simp] theorem complete_resAttempts (st : Status) (r : Option Response) (s : State) :
    (complete st r s).resAttempts = s.attempt := rfl
@[simp] theorem complete_resRspValid (st : Status) (r : Option Response) (s : State) :
    (complete st r s).resRspValid = rspValidAfter st s.cmdOp := rfl
@[simp] theorem complete_resPpmValid (st : Status) (r : Option Response) (s : State) :
    (complete st r s).resPpmValid = ppmValidAfter st s.cmdOp := rfl
@[simp] theorem complete_resEcho (st : Status) (r : Option Response) (s : State) :
    (complete st r s).resEcho = responseField st r (fun x => x.echo) s.resEcho := rfl
@[simp] theorem complete_resConc (st : Status) (r : Option Response) (s : State) :
    (complete st r s).resConc = responseField st r (fun x => x.conc) s.resConc := rfl
@[simp] theorem complete_resRem (st : Status) (r : Option Response) (s : State) :
    (complete st r s).resRem = responseField st r (fun x => x.rem) s.resRem := rfl
@[simp] theorem complete_resChk (st : Status) (r : Option Response) (s : State) :
    (complete st r s).resChk = responseField st r (fun x => x.chk) s.resChk := rfl
@[simp] theorem complete_cfg (st : Status) (r : Option Response) (s : State) : (complete st r s).cfg = s.cfg := rfl
@[simp] theorem complete_rst (st : Status) (r : Option Response) (s : State) : (complete st r s).rst = s.rst := rfl
@[simp] theorem complete_requests (st : Status) (r : Option Response) (s : State) :
    (complete st r s).requests = s.requests := rfl
@[simp] theorem complete_openReplies (st : Status) (r : Option Response) (s : State) :
    (complete st r s).openReplies = s.openReplies := rfl
@[simp] theorem complete_writeReplies (st : Status) (r : Option Response) (s : State) :
    (complete st r s).writeReplies = s.writeReplies := rfl
@[simp] theorem complete_readReplies (st : Status) (r : Option Response) (s : State) :
    (complete st r s).readReplies = s.readReplies := rfl
@[simp] theorem complete_calls (st : Status) (r : Option Response) (s : State) :
    (complete st r s).calls = s.calls := rfl
@[simp] theorem complete_completions (st : Status) (r : Option Response) (s : State) :
    (complete st r s).completions = s.completions ++ [recordOf (finish st r s)] := rfl
@[simp] theorem complete_resets (st : Status) (r : Option Response) (s : State) :
    (complete st r s).resets = s.resets := rfl

@[simp] theorem accept_conn (op : Op) (arg : Arg) (s : State) : (accept op arg s).conn = s.conn := rfl
@[simp] theorem accept_phase (op : Op) (arg : Arg) (s : State) : (accept op arg s).phase = .dispatch := rfl
@[simp] theorem accept_attempt (op : Op) (arg : Arg) (s : State) : (accept op arg s).attempt = 0 := rfl
@[simp] theorem accept_cmdOp (op : Op) (arg : Arg) (s : State) : (accept op arg s).cmdOp = op := rfl
@[simp] theorem accept_cmdArg (op : Op) (arg : Arg) (s : State) :
    (accept op arg s).cmdArg = (argBits s.cfg.argW arg).toNat := rfl
@[simp] theorem accept_txbuf (op : Op) (arg : Arg) (s : State) : (accept op arg s).txbuf = s.txbuf := rfl
@[simp] theorem accept_rxbuf (op : Op) (arg : Arg) (s : State) : (accept op arg s).rxbuf = s.rxbuf := rfl
@[simp] theorem accept_rxlen (op : Op) (arg : Arg) (s : State) : (accept op arg s).rxlen = s.rxlen := rfl
@[simp] theorem accept_resValid (op : Op) (arg : Arg) (s : State) : (accept op arg s).resValid = false := rfl
@[simp] theorem accept_resStatus (op : Op) (arg : Arg) (s : State) : (accept op arg s).resStatus = s.resStatus := rfl
@[simp] theorem accept_resAttempts (op : Op) (arg : Arg) (s : State) :
    (accept op arg s).resAttempts = s.resAttempts := rfl
@[simp] theorem accept_resRspValid (op : Op) (arg : Arg) (s : State) :
    (accept op arg s).resRspValid = s.resRspValid := rfl
@[simp] theorem accept_resPpmValid (op : Op) (arg : Arg) (s : State) :
    (accept op arg s).resPpmValid = s.resPpmValid := rfl
@[simp] theorem accept_resEcho (op : Op) (arg : Arg) (s : State) : (accept op arg s).resEcho = s.resEcho := rfl
@[simp] theorem accept_resConc (op : Op) (arg : Arg) (s : State) : (accept op arg s).resConc = s.resConc := rfl
@[simp] theorem accept_resRem (op : Op) (arg : Arg) (s : State) : (accept op arg s).resRem = s.resRem := rfl
@[simp] theorem accept_resChk (op : Op) (arg : Arg) (s : State) : (accept op arg s).resChk = s.resChk := rfl
@[simp] theorem accept_cfg (op : Op) (arg : Arg) (s : State) : (accept op arg s).cfg = s.cfg := rfl
@[simp] theorem accept_rst (op : Op) (arg : Arg) (s : State) : (accept op arg s).rst = s.rst := rfl
@[simp] theorem accept_requests (op : Op) (arg : Arg) (s : State) :
    (accept op arg s).requests = s.requests.tail := rfl
@[simp] theorem accept_openReplies (op : Op) (arg : Arg) (s : State) :
    (accept op arg s).openReplies = s.openReplies := rfl
@[simp] theorem accept_writeReplies (op : Op) (arg : Arg) (s : State) :
    (accept op arg s).writeReplies = s.writeReplies := rfl
@[simp] theorem accept_readReplies (op : Op) (arg : Arg) (s : State) :
    (accept op arg s).readReplies = s.readReplies := rfl
@[simp] theorem accept_calls (op : Op) (arg : Arg) (s : State) : (accept op arg s).calls = s.calls := rfl
@[simp] theorem accept_completions (op : Op) (arg : Arg) (s : State) :
    (accept op arg s).completions = s.completions := rfl
@[simp] theorem accept_resets (op : Op) (arg : Arg) (s : State) : (accept op arg s).resets = s.resets := rfl

@[simp] theorem startOpen_conn (s : State) : (startOpen s).conn = s.conn := rfl
@[simp] theorem startOpen_phase (s : State) : (startOpen s).phase = .openWait := rfl
@[simp] theorem startOpen_attempt (s : State) : (startOpen s).attempt = s.attempt := rfl
@[simp] theorem startOpen_cmdOp (s : State) : (startOpen s).cmdOp = s.cmdOp := rfl
@[simp] theorem startOpen_cmdArg (s : State) : (startOpen s).cmdArg = s.cmdArg := rfl
@[simp] theorem startOpen_txbuf (s : State) : (startOpen s).txbuf = s.txbuf := rfl
@[simp] theorem startOpen_rxbuf (s : State) : (startOpen s).rxbuf = s.rxbuf := rfl
@[simp] theorem startOpen_rxlen (s : State) : (startOpen s).rxlen = s.rxlen := rfl
@[simp] theorem startOpen_resValid (s : State) : (startOpen s).resValid = s.resValid := rfl
@[simp] theorem startOpen_resStatus (s : State) : (startOpen s).resStatus = s.resStatus := rfl
@[simp] theorem startOpen_resAttempts (s : State) : (startOpen s).resAttempts = s.resAttempts := rfl
@[simp] theorem startOpen_resRspValid (s : State) : (startOpen s).resRspValid = s.resRspValid := rfl
@[simp] theorem startOpen_resPpmValid (s : State) : (startOpen s).resPpmValid = s.resPpmValid := rfl
@[simp] theorem startOpen_resEcho (s : State) : (startOpen s).resEcho = s.resEcho := rfl
@[simp] theorem startOpen_resConc (s : State) : (startOpen s).resConc = s.resConc := rfl
@[simp] theorem startOpen_resRem (s : State) : (startOpen s).resRem = s.resRem := rfl
@[simp] theorem startOpen_resChk (s : State) : (startOpen s).resChk = s.resChk := rfl
@[simp] theorem startOpen_cfg (s : State) : (startOpen s).cfg = s.cfg := rfl
@[simp] theorem startOpen_rst (s : State) : (startOpen s).rst = s.rst := rfl
@[simp] theorem startOpen_requests (s : State) : (startOpen s).requests = s.requests := rfl
@[simp] theorem startOpen_openReplies (s : State) : (startOpen s).openReplies = s.openReplies := rfl
@[simp] theorem startOpen_writeReplies (s : State) : (startOpen s).writeReplies = s.writeReplies := rfl
@[simp] theorem startOpen_readReplies (s : State) : (startOpen s).readReplies = s.readReplies := rfl
@[simp] theorem startOpen_calls (s : State) : (startOpen s).calls = s.calls ++ [.tOpen] := rfl
@[simp] theorem startOpen_completions (s : State) : (startOpen s).completions = s.completions := rfl
@[simp] theorem startOpen_resets (s : State) : (startOpen s).resets = s.resets := rfl

@[simp] theorem transmit_conn (f : Frame) (s : State) : (transmit f s).conn = s.conn := rfl
@[simp] theorem transmit_phase (f : Frame) (s : State) : (transmit f s).phase = .writeWait := rfl
@[simp] theorem transmit_attempt (f : Frame) (s : State) : (transmit f s).attempt = s.attempt := rfl
@[simp] theorem transmit_cmdOp (f : Frame) (s : State) : (transmit f s).cmdOp = s.cmdOp := rfl
@[simp] theorem transmit_cmdArg (f : Frame) (s : State) : (transmit f s).cmdArg = s.cmdArg := rfl
@[simp] theorem transmit_txbuf (f : Frame) (s : State) : (transmit f s).txbuf = f := rfl
@[simp] theorem transmit_rxbuf (f : Frame) (s : State) : (transmit f s).rxbuf = s.rxbuf := rfl
@[simp] theorem transmit_rxlen (f : Frame) (s : State) : (transmit f s).rxlen = s.rxlen := rfl
@[simp] theorem transmit_resValid (f : Frame) (s : State) : (transmit f s).resValid = s.resValid := rfl
@[simp] theorem transmit_resStatus (f : Frame) (s : State) : (transmit f s).resStatus = s.resStatus := rfl
@[simp] theorem transmit_resAttempts (f : Frame) (s : State) : (transmit f s).resAttempts = s.resAttempts := rfl
@[simp] theorem transmit_resRspValid (f : Frame) (s : State) : (transmit f s).resRspValid = s.resRspValid := rfl
@[simp] theorem transmit_resPpmValid (f : Frame) (s : State) : (transmit f s).resPpmValid = s.resPpmValid := rfl
@[simp] theorem transmit_resEcho (f : Frame) (s : State) : (transmit f s).resEcho = s.resEcho := rfl
@[simp] theorem transmit_resConc (f : Frame) (s : State) : (transmit f s).resConc = s.resConc := rfl
@[simp] theorem transmit_resRem (f : Frame) (s : State) : (transmit f s).resRem = s.resRem := rfl
@[simp] theorem transmit_resChk (f : Frame) (s : State) : (transmit f s).resChk = s.resChk := rfl
@[simp] theorem transmit_cfg (f : Frame) (s : State) : (transmit f s).cfg = s.cfg := rfl
@[simp] theorem transmit_rst (f : Frame) (s : State) : (transmit f s).rst = s.rst := rfl
@[simp] theorem transmit_requests (f : Frame) (s : State) : (transmit f s).requests = s.requests := rfl
@[simp] theorem transmit_openReplies (f : Frame) (s : State) : (transmit f s).openReplies = s.openReplies := rfl
@[simp] theorem transmit_writeReplies (f : Frame) (s : State) : (transmit f s).writeReplies = s.writeReplies := rfl
@[simp] theorem transmit_readReplies (f : Frame) (s : State) : (transmit f s).readReplies = s.readReplies := rfl
@[simp] theorem transmit_calls (f : Frame) (s : State) : (transmit f s).calls = s.calls ++ [.tWrite f] := rfl
@[simp] theorem transmit_completions (f : Frame) (s : State) : (transmit f s).completions = s.completions := rfl
@[simp] theorem transmit_resets (f : Frame) (s : State) : (transmit f s).resets = s.resets := rfl

@[simp] theorem startRead_conn (a : BitVec 2) (s : State) : (startRead a s).conn = s.conn := rfl
@[simp] theorem startRead_phase (a : BitVec 2) (s : State) : (startRead a s).phase = .readWait := rfl
@[simp] theorem startRead_attempt (a : BitVec 2) (s : State) : (startRead a s).attempt = a := rfl
@[simp] theorem startRead_cmdOp (a : BitVec 2) (s : State) : (startRead a s).cmdOp = s.cmdOp := rfl
@[simp] theorem startRead_cmdArg (a : BitVec 2) (s : State) : (startRead a s).cmdArg = s.cmdArg := rfl
@[simp] theorem startRead_txbuf (a : BitVec 2) (s : State) : (startRead a s).txbuf = s.txbuf := rfl
@[simp] theorem startRead_rxbuf (a : BitVec 2) (s : State) : (startRead a s).rxbuf = s.rxbuf := rfl
@[simp] theorem startRead_rxlen (a : BitVec 2) (s : State) : (startRead a s).rxlen = s.rxlen := rfl
@[simp] theorem startRead_resValid (a : BitVec 2) (s : State) : (startRead a s).resValid = s.resValid := rfl
@[simp] theorem startRead_resStatus (a : BitVec 2) (s : State) : (startRead a s).resStatus = s.resStatus := rfl
@[simp] theorem startRead_resAttempts (a : BitVec 2) (s : State) : (startRead a s).resAttempts = s.resAttempts := rfl
@[simp] theorem startRead_resRspValid (a : BitVec 2) (s : State) : (startRead a s).resRspValid = s.resRspValid := rfl
@[simp] theorem startRead_resPpmValid (a : BitVec 2) (s : State) : (startRead a s).resPpmValid = s.resPpmValid := rfl
@[simp] theorem startRead_resEcho (a : BitVec 2) (s : State) : (startRead a s).resEcho = s.resEcho := rfl
@[simp] theorem startRead_resConc (a : BitVec 2) (s : State) : (startRead a s).resConc = s.resConc := rfl
@[simp] theorem startRead_resRem (a : BitVec 2) (s : State) : (startRead a s).resRem = s.resRem := rfl
@[simp] theorem startRead_resChk (a : BitVec 2) (s : State) : (startRead a s).resChk = s.resChk := rfl
@[simp] theorem startRead_cfg (a : BitVec 2) (s : State) : (startRead a s).cfg = s.cfg := rfl
@[simp] theorem startRead_rst (a : BitVec 2) (s : State) : (startRead a s).rst = s.rst := rfl
@[simp] theorem startRead_requests (a : BitVec 2) (s : State) : (startRead a s).requests = s.requests := rfl
@[simp] theorem startRead_openReplies (a : BitVec 2) (s : State) : (startRead a s).openReplies = s.openReplies := rfl
@[simp] theorem startRead_writeReplies (a : BitVec 2) (s : State) :
    (startRead a s).writeReplies = s.writeReplies := rfl
@[simp] theorem startRead_readReplies (a : BitVec 2) (s : State) : (startRead a s).readReplies = s.readReplies := rfl
@[simp] theorem startRead_calls (a : BitVec 2) (s : State) : (startRead a s).calls = s.calls ++ [.tRead] := rfl
@[simp] theorem startRead_completions (a : BitVec 2) (s : State) : (startRead a s).completions = s.completions := rfl
@[simp] theorem startRead_resets (a : BitVec 2) (s : State) : (startRead a s).resets = s.resets := rfl

@[simp] theorem storeReply_conn (f : Frame) (s : State) : (storeReply f s).conn = s.conn := rfl
@[simp] theorem storeReply_phase (f : Frame) (s : State) : (storeReply f s).phase = .parse := rfl
@[simp] theorem storeReply_attempt (f : Frame) (s : State) : (storeReply f s).attempt = s.attempt := rfl
@[simp] theorem storeReply_cmdOp (f : Frame) (s : State) : (storeReply f s).cmdOp = s.cmdOp := rfl
@[simp] theorem storeReply_cmdArg (f : Frame) (s : State) : (storeReply f s).cmdArg = s.cmdArg := rfl
@[simp] theorem storeReply_txbuf (f : Frame) (s : State) : (storeReply f s).txbuf = s.txbuf := rfl
@[simp] theorem storeReply_rxbuf (f : Frame) (s : State) : (storeReply f s).rxbuf = f := rfl
@[simp] theorem storeReply_rxlen (f : Frame) (s : State) : (storeReply f s).rxlen = 9 := rfl
@[simp] theorem storeReply_resValid (f : Frame) (s : State) : (storeReply f s).resValid = s.resValid := rfl
@[simp] theorem storeReply_resStatus (f : Frame) (s : State) : (storeReply f s).resStatus = s.resStatus := rfl
@[simp] theorem storeReply_resAttempts (f : Frame) (s : State) : (storeReply f s).resAttempts = s.resAttempts := rfl
@[simp] theorem storeReply_resRspValid (f : Frame) (s : State) : (storeReply f s).resRspValid = s.resRspValid := rfl
@[simp] theorem storeReply_resPpmValid (f : Frame) (s : State) : (storeReply f s).resPpmValid = s.resPpmValid := rfl
@[simp] theorem storeReply_resEcho (f : Frame) (s : State) : (storeReply f s).resEcho = s.resEcho := rfl
@[simp] theorem storeReply_resConc (f : Frame) (s : State) : (storeReply f s).resConc = s.resConc := rfl
@[simp] theorem storeReply_resRem (f : Frame) (s : State) : (storeReply f s).resRem = s.resRem := rfl
@[simp] theorem storeReply_resChk (f : Frame) (s : State) : (storeReply f s).resChk = s.resChk := rfl
@[simp] theorem storeReply_cfg (f : Frame) (s : State) : (storeReply f s).cfg = s.cfg := rfl
@[simp] theorem storeReply_rst (f : Frame) (s : State) : (storeReply f s).rst = s.rst := rfl
@[simp] theorem storeReply_requests (f : Frame) (s : State) : (storeReply f s).requests = s.requests := rfl
@[simp] theorem storeReply_openReplies (f : Frame) (s : State) : (storeReply f s).openReplies = s.openReplies := rfl
@[simp] theorem storeReply_writeReplies (f : Frame) (s : State) :
    (storeReply f s).writeReplies = s.writeReplies := rfl
@[simp] theorem storeReply_readReplies (f : Frame) (s : State) : (storeReply f s).readReplies = s.readReplies := rfl
@[simp] theorem storeReply_calls (f : Frame) (s : State) : (storeReply f s).calls = s.calls := rfl
@[simp] theorem storeReply_completions (f : Frame) (s : State) : (storeReply f s).completions = s.completions := rfl
@[simp] theorem storeReply_resets (f : Frame) (s : State) : (storeReply f s).resets = s.resets := rfl

@[simp] theorem popOpen_conn (s : State) : (popOpen s).conn = s.conn := rfl
@[simp] theorem popOpen_phase (s : State) : (popOpen s).phase = s.phase := rfl
@[simp] theorem popOpen_attempt (s : State) : (popOpen s).attempt = s.attempt := rfl
@[simp] theorem popOpen_cmdOp (s : State) : (popOpen s).cmdOp = s.cmdOp := rfl
@[simp] theorem popOpen_cmdArg (s : State) : (popOpen s).cmdArg = s.cmdArg := rfl
@[simp] theorem popOpen_txbuf (s : State) : (popOpen s).txbuf = s.txbuf := rfl
@[simp] theorem popOpen_rxbuf (s : State) : (popOpen s).rxbuf = s.rxbuf := rfl
@[simp] theorem popOpen_rxlen (s : State) : (popOpen s).rxlen = s.rxlen := rfl
@[simp] theorem popOpen_resValid (s : State) : (popOpen s).resValid = s.resValid := rfl
@[simp] theorem popOpen_resStatus (s : State) : (popOpen s).resStatus = s.resStatus := rfl
@[simp] theorem popOpen_resAttempts (s : State) : (popOpen s).resAttempts = s.resAttempts := rfl
@[simp] theorem popOpen_resRspValid (s : State) : (popOpen s).resRspValid = s.resRspValid := rfl
@[simp] theorem popOpen_resPpmValid (s : State) : (popOpen s).resPpmValid = s.resPpmValid := rfl
@[simp] theorem popOpen_resEcho (s : State) : (popOpen s).resEcho = s.resEcho := rfl
@[simp] theorem popOpen_resConc (s : State) : (popOpen s).resConc = s.resConc := rfl
@[simp] theorem popOpen_resRem (s : State) : (popOpen s).resRem = s.resRem := rfl
@[simp] theorem popOpen_resChk (s : State) : (popOpen s).resChk = s.resChk := rfl
@[simp] theorem popOpen_cfg (s : State) : (popOpen s).cfg = s.cfg := rfl
@[simp] theorem popOpen_rst (s : State) : (popOpen s).rst = s.rst := rfl
@[simp] theorem popOpen_requests (s : State) : (popOpen s).requests = s.requests := rfl
@[simp] theorem popOpen_openReplies (s : State) : (popOpen s).openReplies = s.openReplies.tail := rfl
@[simp] theorem popOpen_writeReplies (s : State) : (popOpen s).writeReplies = s.writeReplies := rfl
@[simp] theorem popOpen_readReplies (s : State) : (popOpen s).readReplies = s.readReplies := rfl
@[simp] theorem popOpen_calls (s : State) : (popOpen s).calls = s.calls := rfl
@[simp] theorem popOpen_completions (s : State) : (popOpen s).completions = s.completions := rfl
@[simp] theorem popOpen_resets (s : State) : (popOpen s).resets = s.resets := rfl

@[simp] theorem popWrite_conn (s : State) : (popWrite s).conn = s.conn := rfl
@[simp] theorem popWrite_phase (s : State) : (popWrite s).phase = s.phase := rfl
@[simp] theorem popWrite_attempt (s : State) : (popWrite s).attempt = s.attempt := rfl
@[simp] theorem popWrite_cmdOp (s : State) : (popWrite s).cmdOp = s.cmdOp := rfl
@[simp] theorem popWrite_cmdArg (s : State) : (popWrite s).cmdArg = s.cmdArg := rfl
@[simp] theorem popWrite_txbuf (s : State) : (popWrite s).txbuf = s.txbuf := rfl
@[simp] theorem popWrite_rxbuf (s : State) : (popWrite s).rxbuf = s.rxbuf := rfl
@[simp] theorem popWrite_rxlen (s : State) : (popWrite s).rxlen = s.rxlen := rfl
@[simp] theorem popWrite_resValid (s : State) : (popWrite s).resValid = s.resValid := rfl
@[simp] theorem popWrite_resStatus (s : State) : (popWrite s).resStatus = s.resStatus := rfl
@[simp] theorem popWrite_resAttempts (s : State) : (popWrite s).resAttempts = s.resAttempts := rfl
@[simp] theorem popWrite_resRspValid (s : State) : (popWrite s).resRspValid = s.resRspValid := rfl
@[simp] theorem popWrite_resPpmValid (s : State) : (popWrite s).resPpmValid = s.resPpmValid := rfl
@[simp] theorem popWrite_resEcho (s : State) : (popWrite s).resEcho = s.resEcho := rfl
@[simp] theorem popWrite_resConc (s : State) : (popWrite s).resConc = s.resConc := rfl
@[simp] theorem popWrite_resRem (s : State) : (popWrite s).resRem = s.resRem := rfl
@[simp] theorem popWrite_resChk (s : State) : (popWrite s).resChk = s.resChk := rfl
@[simp] theorem popWrite_cfg (s : State) : (popWrite s).cfg = s.cfg := rfl
@[simp] theorem popWrite_rst (s : State) : (popWrite s).rst = s.rst := rfl
@[simp] theorem popWrite_requests (s : State) : (popWrite s).requests = s.requests := rfl
@[simp] theorem popWrite_openReplies (s : State) : (popWrite s).openReplies = s.openReplies := rfl
@[simp] theorem popWrite_writeReplies (s : State) : (popWrite s).writeReplies = s.writeReplies.tail := rfl
@[simp] theorem popWrite_readReplies (s : State) : (popWrite s).readReplies = s.readReplies := rfl
@[simp] theorem popWrite_calls (s : State) : (popWrite s).calls = s.calls := rfl
@[simp] theorem popWrite_completions (s : State) : (popWrite s).completions = s.completions := rfl
@[simp] theorem popWrite_resets (s : State) : (popWrite s).resets = s.resets := rfl

@[simp] theorem popRead_conn (s : State) : (popRead s).conn = s.conn := rfl
@[simp] theorem popRead_phase (s : State) : (popRead s).phase = s.phase := rfl
@[simp] theorem popRead_attempt (s : State) : (popRead s).attempt = s.attempt := rfl
@[simp] theorem popRead_cmdOp (s : State) : (popRead s).cmdOp = s.cmdOp := rfl
@[simp] theorem popRead_cmdArg (s : State) : (popRead s).cmdArg = s.cmdArg := rfl
@[simp] theorem popRead_txbuf (s : State) : (popRead s).txbuf = s.txbuf := rfl
@[simp] theorem popRead_rxbuf (s : State) : (popRead s).rxbuf = s.rxbuf := rfl
@[simp] theorem popRead_rxlen (s : State) : (popRead s).rxlen = s.rxlen := rfl
@[simp] theorem popRead_resValid (s : State) : (popRead s).resValid = s.resValid := rfl
@[simp] theorem popRead_resStatus (s : State) : (popRead s).resStatus = s.resStatus := rfl
@[simp] theorem popRead_resAttempts (s : State) : (popRead s).resAttempts = s.resAttempts := rfl
@[simp] theorem popRead_resRspValid (s : State) : (popRead s).resRspValid = s.resRspValid := rfl
@[simp] theorem popRead_resPpmValid (s : State) : (popRead s).resPpmValid = s.resPpmValid := rfl
@[simp] theorem popRead_resEcho (s : State) : (popRead s).resEcho = s.resEcho := rfl
@[simp] theorem popRead_resConc (s : State) : (popRead s).resConc = s.resConc := rfl
@[simp] theorem popRead_resRem (s : State) : (popRead s).resRem = s.resRem := rfl
@[simp] theorem popRead_resChk (s : State) : (popRead s).resChk = s.resChk := rfl
@[simp] theorem popRead_cfg (s : State) : (popRead s).cfg = s.cfg := rfl
@[simp] theorem popRead_rst (s : State) : (popRead s).rst = s.rst := rfl
@[simp] theorem popRead_requests (s : State) : (popRead s).requests = s.requests := rfl
@[simp] theorem popRead_openReplies (s : State) : (popRead s).openReplies = s.openReplies := rfl
@[simp] theorem popRead_writeReplies (s : State) : (popRead s).writeReplies = s.writeReplies := rfl
@[simp] theorem popRead_readReplies (s : State) : (popRead s).readReplies = s.readReplies.tail := rfl
@[simp] theorem popRead_calls (s : State) : (popRead s).calls = s.calls := rfl
@[simp] theorem popRead_completions (s : State) : (popRead s).completions = s.completions := rfl
@[simp] theorem popRead_resets (s : State) : (popRead s).resets = s.resets := rfl

@[simp] theorem takeReset_conn (s : State) : (takeReset s).conn = .unopened := rfl
@[simp] theorem takeReset_phase (s : State) : (takeReset s).phase = .idle := rfl
@[simp] theorem takeReset_attempt (s : State) : (takeReset s).attempt = 0 := rfl
@[simp] theorem takeReset_cmdOp (s : State) : (takeReset s).cmdOp = (Config.afterReset s.resets).cmdOp := rfl
@[simp] theorem takeReset_cmdArg (s : State) :
    (takeReset s).cmdArg = (argBits s.cfg.argW (Config.afterReset s.resets).cmdArg).toNat := rfl
@[simp] theorem takeReset_txbuf (s : State) : (takeReset s).txbuf = (Config.afterReset s.resets).txbuf := rfl
@[simp] theorem takeReset_rxbuf (s : State) : (takeReset s).rxbuf = (Config.afterReset s.resets).rxbuf := rfl
@[simp] theorem takeReset_rxlen (s : State) : (takeReset s).rxlen = (Config.afterReset s.resets).rxlen := rfl
@[simp] theorem takeReset_resValid (s : State) : (takeReset s).resValid = false := rfl
@[simp] theorem takeReset_resStatus (s : State) :
    (takeReset s).resStatus = (Config.afterReset s.resets).resStatus := rfl
@[simp] theorem takeReset_resAttempts (s : State) :
    (takeReset s).resAttempts = (Config.afterReset s.resets).resAttempts := rfl
@[simp] theorem takeReset_resRspValid (s : State) :
    (takeReset s).resRspValid = (Config.afterReset s.resets).resRspValid := rfl
@[simp] theorem takeReset_resPpmValid (s : State) :
    (takeReset s).resPpmValid = (Config.afterReset s.resets).resPpmValid := rfl
@[simp] theorem takeReset_resEcho (s : State) : (takeReset s).resEcho = (Config.afterReset s.resets).resEcho := rfl
@[simp] theorem takeReset_resConc (s : State) : (takeReset s).resConc = (Config.afterReset s.resets).resConc := rfl
@[simp] theorem takeReset_resRem (s : State) : (takeReset s).resRem = (Config.afterReset s.resets).resRem := rfl
@[simp] theorem takeReset_resChk (s : State) : (takeReset s).resChk = (Config.afterReset s.resets).resChk := rfl
@[simp] theorem takeReset_cfg (s : State) : (takeReset s).cfg = s.cfg := rfl
@[simp] theorem takeReset_rst (s : State) : (takeReset s).rst = false := rfl
@[simp] theorem takeReset_requests (s : State) : (takeReset s).requests = s.requests := rfl
@[simp] theorem takeReset_openReplies (s : State) :
    (takeReset s).openReplies = if s.phase = .openWait then s.openReplies.tail else s.openReplies := rfl
@[simp] theorem takeReset_writeReplies (s : State) :
    (takeReset s).writeReplies = if s.phase = .writeWait then s.writeReplies.tail else s.writeReplies := rfl
@[simp] theorem takeReset_readReplies (s : State) :
    (takeReset s).readReplies = if s.phase = .readWait then s.readReplies.tail else s.readReplies := rfl
@[simp] theorem takeReset_calls (s : State) : (takeReset s).calls = s.calls := rfl
@[simp] theorem takeReset_completions (s : State) : (takeReset s).completions = s.completions := rfl
@[simp] theorem takeReset_resets (s : State) : (takeReset s).resets = s.resets + 1 := rfl

/-- Taking an exception is a completion without a Response. -/
@[simp] theorem raise_eq_complete (st : Status) (s : State) : raise st s = complete st none s := rfl

/-- The record that a completion emits is the record of the registers it leaves. -/
@[simp] theorem recordOf_complete (st : Status) (r : Option Response) (s : State) :
    recordOf (complete st r s) = recordOf (finish st r s) := rfl

/-- The record of a completion, field by field (30_encoding.md R68). -/
theorem recordOf_finish (st : Status) (r : Option Response) (s : State) :
    recordOf (finish st r s) =
      { status := st, attempts := s.attempt, rspValid := rspValidAfter st s.cmdOp,
        ppmValid := ppmValidAfter st s.cmdOp,
        rsp := if rspValidAfter st s.cmdOp then
            some { echo := responseField st r (fun x => x.echo) s.resEcho,
                   conc := responseField st r (fun x => x.conc) s.resConc,
                   rem := responseField st r (fun x => x.rem) s.resRem,
                   chk := responseField st r (fun x => x.chk) s.resChk }
          else none } := rfl

@[simp] theorem responseField_none {α : Type} (st : Status) (new : Response → α) (old : α) :
    responseField st none new old = old := by cases st <;> rfl

@[simp] theorem responseField_ok {α : Type} (r : Response) (new : Response → α) (old : α) :
    responseField .ok (some r) new old = new r := rfl

end Sys2Proof.Machine
end

