-- ==== Sys2Proof/Laws/Ops.lean ====
section
/-! SUPPORT. For each shared operation, once, everything it can do; the provers cite these instead of unfolding it. -/

namespace Sys2Proof.Machine

/-- The `DISPATCH` arm of each request. -/
def dispatchOf (op : Op) (arg : Arg) : State → State :=
  match op with
  | .connect => connectDispatch
  | .close => closeDispatch
  | .readCo2 => fun s => sensorDispatch .readCo2 (argBits s.cfg.argW arg) s
  | .zeroCal => fun s => sensorDispatch .zeroCal (argBits s.cfg.argW arg) s
  | .spanCal => fun s => sensorDispatch .spanCal (argBits s.cfg.argW arg) s
  | .setAbc => fun s => sensorDispatch .setAbc (argBits s.cfg.argW arg) s
  | .setRange => fun s => sensorDispatch .setRange (argBits s.cfg.argW arg) s
  | .reserved7 => reservedDispatch

/-- Every request runs the shared step with its own `DISPATCH` arm. -/
theorem exec_requestInstr (op : Op) (arg : Arg) (s : State) :
    exec (requestInstr op arg) s = .next (requestStep op arg (dispatchOf op arg) s) := by
  cases op <;> rfl

theorem dispatchOf_sensor {op : Op} (h : isSensor op = true) (arg : Arg) (s : State) :
    dispatchOf op arg s = sensorDispatch op (argBits s.cfg.argW arg) s := by
  cases op <;> first | rfl | cases h

theorem requestStep_idle {op : Op} {arg : Arg} {d : State → State} {s : State} (h : s.phase = .idle) :
    requestStep op arg d s = accept op arg s := by simp [requestStep, h]

theorem requestStep_dispatch {op : Op} {arg : Arg} {d : State → State} {s : State} (h : s.phase = .dispatch) :
    requestStep op arg d s = d s := by simp [requestStep, h]

theorem requestStep_openWait {op : Op} {arg : Arg} {d : State → State} {s : State} (h : s.phase = .openWait) :
    requestStep op arg d s = openDone s := by simp [requestStep, h]

theorem requestStep_writeWait {op : Op} {arg : Arg} {d : State → State} {s : State} (h : s.phase = .writeWait) :
    requestStep op arg d s = writeDone s := by simp [requestStep, h]

theorem requestStep_readWait {op : Op} {arg : Arg} {d : State → State} {s : State} (h : s.phase = .readWait) :
    requestStep op arg d s = readDone s := by simp [requestStep, h]

theorem requestStep_parse {op : Op} {arg : Arg} {d : State → State} {s : State} (h : s.phase = .parse) :
    requestStep op arg d s = parseDone s := by simp [requestStep, h]

/-- What the `OPEN_WAIT` step can do. -/
theorem openDone_cases (s : State) :
    (s.openReplies = [] ∧ openDone s = s) ∨
    (∃ rest, s.openReplies = true :: rest ∧
      openDone s = complete .ok none { s with openReplies := rest, conn := .opened }) ∨
    (∃ rest, s.openReplies = false :: rest ∧
      openDone s = complete .connectionError none { s with openReplies := rest }) := by
  cases h : s.openReplies with
  | nil => exact .inl ⟨rfl, by simp [openDone, h]⟩
  | cons b rest =>
    cases b with
    | true => exact .inr (.inl ⟨rest, rfl, by simp [openDone, h, onOpenReply, popOpen]⟩)
    | false => exact .inr (.inr ⟨rest, rfl, by simp [openDone, h, onOpenReply, popOpen]⟩)

/-- What `WRITE_DONE` can do. -/
theorem writeDone_cases (s : State) :
    (s.writeReplies = [] ∧ writeDone s = s) ∨
    (∃ n rest, s.writeReplies = .error n :: rest ∧
      writeDone s = complete .transportError none { s with writeReplies := rest }) ∨
    (∃ n rest, s.writeReplies = .count n :: rest ∧ n.val < 9 ∧
      writeDone s = complete .partialWrite none { s with writeReplies := rest }) ∨
    (∃ n rest, s.writeReplies = .count n :: rest ∧ n.val = 9 ∧
      writeDone s = startRead 1 { s with writeReplies := rest }) := by
  cases h : s.writeReplies with
  | nil => exact .inl ⟨rfl, by simp [writeDone, h]⟩
  | cons r rest =>
    cases r with
    | error n => exact .inr (.inl ⟨n, rest, rfl, by simp [writeDone, h, onWriteReply, popWrite]⟩)
    | count n =>
      by_cases hn : n.val < 9
      · exact .inr (.inr (.inl ⟨n, rest, rfl, hn, by simp [writeDone, h, onWriteReply, popWrite, hn]⟩))
      · exact .inr (.inr (.inr ⟨n, rest, rfl, by omega, by simp [writeDone, h, onWriteReply, popWrite, hn]⟩))

/-- What `READ_DONE` can do. -/
theorem readDone_cases (s : State) :
    (s.readReplies = [] ∧ readDone s = s) ∨
    (∃ n f rest, s.readReplies = .timeout n f :: rest ∧ s.attempt.toNat < 3 ∧
      readDone s = startRead (s.attempt + 1) { s with readReplies := rest }) ∨
    (∃ n f rest, s.readReplies = .timeout n f :: rest ∧ ¬ s.attempt.toNat < 3 ∧
      readDone s = complete .readFailed none { s with readReplies := rest }) ∨
    (∃ n f rest, s.readReplies = .error n f :: rest ∧
      readDone s = complete .transportError none { s with readReplies := rest }) ∨
    (∃ n f rest, s.readReplies = .data n f :: rest ∧ n.val < 9 ∧
      readDone s = complete .incompleteResponse none { s with readReplies := rest }) ∨
    (∃ f rest, s.readReplies = .data 9 f :: rest ∧
      readDone s = storeReply f { s with readReplies := rest }) := by
  cases h : s.readReplies with
  | nil => exact .inl ⟨rfl, by simp [readDone, h]⟩
  | cons r rest =>
    cases r with
    | timeout n f =>
      by_cases ha : s.attempt.toNat < 3
      · exact .inr (.inl ⟨n, f, rest, rfl, ha, by simp [readDone, h, onReadReply, popRead, ha]⟩)
      · exact .inr (.inr (.inl ⟨n, f, rest, rfl, ha, by simp [readDone, h, onReadReply, popRead, ha]⟩))
    | error n f => exact .inr (.inr (.inr (.inl ⟨n, f, rest, rfl, by simp [readDone, h, onReadReply, popRead]⟩)))
    | data n f =>
      by_cases hn : n.val < 9
      · exact .inr (.inr (.inr (.inr (.inl
          ⟨n, f, rest, rfl, hn, by simp [readDone, h, onReadReply, popRead, hn]⟩))))
      · obtain rfl : n = 9 := Fin.ext (by have := n.isLt; simp; omega)
        exact .inr (.inr (.inr (.inr (.inr ⟨f, rest, rfl, by simp [readDone, h, onReadReply, popRead]⟩))))

/-- What the parser can answer (40_frame_codec.md R89). -/
theorem parse_cases (len : Fin 10) (f : Frame) :
    (len.val < 9 ∧ parse len f = .error .incompleteResponse) ∨
    (len = 9 ∧ f.b0 ≠ header ∧ parse len f = .error .invalidHeader) ∨
    (len = 9 ∧ f.b0 = header ∧ checksum f.toBody ≠ f.b8 ∧ parse len f = .error .checksumMismatch) ∨
    (len = 9 ∧ f.b0 = header ∧ checksum f.toBody = f.b8 ∧ parse len f = .ok (responseOf f)) := by
  by_cases h : len.val < 9
  · exact .inl ⟨h, by simp [parse, h]⟩
  · obtain rfl : len = 9 := Fin.ext (by have := len.isLt; simp; omega)
    by_cases hh : f.b0 = header
    · by_cases hc : checksum f.toBody = f.b8
      · exact .inr (.inr (.inr ⟨rfl, hh, hc, by unfold parse; rw [if_neg h, if_neg (not_not.mpr hh), if_neg (not_not.mpr hc)]⟩))
      · exact .inr (.inr (.inl ⟨rfl, hh, hc,
          by unfold parse; rw [if_neg h, if_neg (not_not.mpr hh), if_pos hc]⟩))
    · exact .inr (.inl ⟨rfl, hh, by unfold parse; rw [if_neg h, if_pos hh]⟩)

/-- What the judgement on reply bytes can do: it always ends the request. -/
theorem judge_cases (len : Fin 10) (f : Frame) (s : State) :
    (∃ r, parse len f = .ok r ∧ judge len f s = complete .ok (some r) s) ∨
    (∃ e, parse len f = .error e ∧ judge len f s = complete (parseStatus e) none s) := by
  cases h : parse len f with
  | ok r => exact .inl ⟨r, rfl, by simp [judge, h]⟩
  | error e => exact .inr ⟨e, rfl, by simp [judge, h]⟩

/-- What the `DISPATCH` step of a sensor command can do. -/
theorem sensorDispatch_cases {n : Nat} (op : Op) (arg : BitVec n) (s : State) :
    (build s.cfg op arg = none ∧ sensorDispatch op arg s = complete .invalidArgument none s) ∨
    (∃ f, build s.cfg op arg = some f ∧ s.conn = .opened ∧ sensorDispatch op arg s = transmit f s) ∨
    (∃ f, build s.cfg op arg = some f ∧ s.conn ≠ .opened ∧
      sensorDispatch op arg s = complete .notConnected none s) := by
  cases h : build s.cfg op arg with
  | none => exact .inl ⟨rfl, by simp [sensorDispatch, h]⟩
  | some f =>
    by_cases hc : s.conn = .opened
    · exact .inr (.inl ⟨f, rfl, hc, by simp [sensorDispatch, h, hc]⟩)
    · exact .inr (.inr ⟨f, rfl, hc, by simp [sensorDispatch, h, hc]⟩)

/-- What the `DISPATCH` step of `CONNECT` can do. -/
theorem connectDispatch_cases (s : State) :
    (MayReopen s ∧ connectDispatch s = startOpen s) ∨
    (s.conn = .opened ∧ connectDispatch s = complete .ok none s) ∨
    (s.conn = .closed ∧ s.cfg.reopenAllowed = false ∧
      connectDispatch s = complete .connectionError none s) := by
  cases h : s.conn with
  | unopened => exact .inl ⟨.inl h, by simp [connectDispatch, h]⟩
  | opened => exact .inr (.inl ⟨rfl, by simp [connectDispatch, h]⟩)
  | closed =>
    cases hr : s.cfg.reopenAllowed with
    | true => exact .inl ⟨.inr ⟨h, hr⟩, by simp [connectDispatch, h, hr]⟩
    | false => exact .inr (.inr ⟨rfl, rfl, by simp [connectDispatch, h, hr]⟩)

/-- What the `DISPATCH` step of `CLOSE` can do. -/
theorem closeDispatch_cases (s : State) :
    (s.conn = .opened ∧
      closeDispatch s = complete .ok none { s with conn := .closed, calls := s.calls ++ [.tClose] }) ∨
    (s.conn ≠ .opened ∧ closeDispatch s = complete .ok none s) := by
  cases h : s.conn with
  | unopened => exact .inr ⟨by simp, by simp [closeDispatch, h]⟩
  | opened => exact .inl ⟨rfl, by simp [closeDispatch, h, issue]⟩
  | closed => exact .inr ⟨by simp, by simp [closeDispatch, h]⟩

/-- A Response register is absent without `RES_RSP_VALID`. -/
theorem readResponse_absent {s : State} (h : s.resRspValid = false) (v : Nat) : readResponse v s = none := by
  simp [readResponse, h]

/-- With `RES_RSP_VALID` it reads as it stands. -/
theorem readResponse_held {s : State} (h : s.resRspValid = true) (v : Nat) : readResponse v s = some v := by
  simp [readResponse, h]

/-- `RST` is taken before anything else. -/
theorem step_of_rst {s : State} (h : s.rst = true) : step s = .next (takeReset s) := by simp [step, h]

/-- With `RST` low, a step runs the instruction fetched. -/
theorem step_of_fetch {s : State} {i : Instr} (h : s.rst = false) (hf : fetch s = some i) : step s = exec i s := by
  simp [step, h, hf]

/-- With `RST` low and no step enabled, the block waits. -/
theorem step_of_no_fetch {s : State} (h : s.rst = false) (hf : fetch s = none) : step s = .next s := by
  simp [step, h, hf]

/-- One more step of a run of any machine, where the step gives a next state. -/
theorem core_run_succ (M : Host.Core) (s t : M.State) (h : M.step s = .next t) (k : Nat) :
    M.run (k + 1) s = M.run k t := by
  simp [Host.Core.run, h]

/-- One more step of a run of this block. -/
theorem run_succ_of_next {s t : State} (h : step s = .next t) (k : Nat) :
    Host.Core.run Sys2Proof.core (k + 1) s = Host.Core.run Sys2Proof.core k t :=
  core_run_succ Sys2Proof.core s t h k

/-- A run that is at a fixed point stays there. -/
theorem run_of_fixed {s : State} (h : step s = .next s) (k : Nat) :
    Host.Core.run Sys2Proof.core k s = .next s := by
  induction k with
  | zero => rfl
  | succ k ih => rw [run_succ_of_next h, ih]

end Sys2Proof.Machine
end

