-- ==== Sys2Proof/Laws/PerInstr.lean ====
section
/-! SUPPORT. A statement made instruction by instruction: the fixed bits of each row of spec/opcode_table.json stand
in the instruction's encoding. -/

namespace Sys2Proof.Laws.RowPattern

/-- The fixed bits of a request row: `REQ_OP` in bits `[ARG_W+2 : ARG_W]` (30_encoding.md R60, R61). -/
abbrev requestRow (argW : Nat) (e : Encoded) (code : BitVec 3) : Prop :=
  match e with
  | .req w => (BitVec.ofNat (3 + argW) w).extractLsb' argW 3 = code
  | .cmd9 _ => False
  | .rsp9 _ => False

/-- The fixed bytes of every command row: header, address, opcode, and three zero bytes (30_encoding.md R62). -/
abbrev commandRow (e : Encoded) (opcode : Byte) : Prop :=
  match e with
  | .req _ => False
  | .cmd9 f => f.b0 = 0xFF ∧ f.b1 = 0x01 ∧ f.b2 = opcode ∧ f.b5 = 0 ∧ f.b6 = 0 ∧ f.b7 = 0
  | .rsp9 _ => False

/-- The fixed byte of the reply row: the header (30_encoding.md R63). -/
abbrev replyRow (e : Encoded) : Prop :=
  match e with
  | .req _ => False
  | .cmd9 _ => False
  | .rsp9 f => f.b0 = 0xFF

/-- The encoding of an instruction, at every `ARG_W`, has its row's fixed bits. -/
def Statement (i : Instr) : Prop := ∀ argW : Nat,
  match i with
  | .connect _ => requestRow argW (encode argW i) 0
  | .close _ => requestRow argW (encode argW i) 1
  | .readCo2 _ => requestRow argW (encode argW i) 2
  | .zeroCal _ => requestRow argW (encode argW i) 3
  | .spanCal _ => requestRow argW (encode argW i) 4
  | .setAbc _ => requestRow argW (encode argW i) 5
  | .setRange _ => requestRow argW (encode argW i) 6
  | .reserved7 _ => requestRow argW (encode argW i) 7
  | .frameReadCo2 _ => commandRow (encode argW i) 0x86
  | .frameZeroCal _ => commandRow (encode argW i) 0x87
  | .frameSpanCal _ _ => commandRow (encode argW i) 0x88
  | .frameSetAbc _ _ => commandRow (encode argW i) 0x79
  | .frameSetRange _ _ => commandRow (encode argW i) 0x99
  | .frameResponse _ _ _ _ => replyRow (encode argW i)

/-- The operation code of a request word stands in its place. -/
theorem requestRow_requestWord (argW : Nat) (op : Op) (arg : Arg) :
    requestRow argW (.req (requestWord argW op arg)) (opCode op) := by
  simp only [requestRow, requestWord, BitVec.ofNat_toNat, BitVec.setWidth_eq]
  exact extract_append_high _ _

theorem connect (arg : Arg) : Statement (.connect arg) :=
  fun argW => requestRow_requestWord argW .connect arg

theorem close (arg : Arg) : Statement (.close arg) :=
  fun argW => requestRow_requestWord argW .close arg

theorem readCo2 (arg : Arg) : Statement (.readCo2 arg) :=
  fun argW => requestRow_requestWord argW .readCo2 arg

theorem zeroCal (arg : Arg) : Statement (.zeroCal arg) :=
  fun argW => requestRow_requestWord argW .zeroCal arg

theorem spanCal (arg : Arg) : Statement (.spanCal arg) :=
  fun argW => requestRow_requestWord argW .spanCal arg

theorem setAbc (arg : Arg) : Statement (.setAbc arg) :=
  fun argW => requestRow_requestWord argW .setAbc arg

theorem setRange (arg : Arg) : Statement (.setRange arg) :=
  fun argW => requestRow_requestWord argW .setRange arg

theorem reserved7 (arg : Arg) : Statement (.reserved7 arg) :=
  fun argW => requestRow_requestWord argW .reserved7 arg

theorem frameReadCo2 (chk : Byte) : Statement (.frameReadCo2 chk) := fun _ => ⟨rfl, rfl, rfl, rfl, rfl, rfl⟩

theorem frameZeroCal (chk : Byte) : Statement (.frameZeroCal chk) := fun _ => ⟨rfl, rfl, rfl, rfl, rfl, rfl⟩

theorem frameSpanCal (ppm : BitVec 16) (chk : Byte) : Statement (.frameSpanCal ppm chk) :=
  fun _ => ⟨rfl, rfl, rfl, rfl, rfl, rfl⟩

theorem frameSetAbc (enabled : Bool) (chk : Byte) : Statement (.frameSetAbc enabled chk) :=
  fun _ => ⟨rfl, rfl, rfl, rfl, rfl, rfl⟩

theorem frameSetRange (range : BitVec 16) (chk : Byte) : Statement (.frameSetRange range chk) :=
  fun _ => ⟨rfl, rfl, rfl, rfl, rfl, rfl⟩

theorem frameResponse (echo : Byte) (conc : BitVec 16) (rem : BitVec 32) (chk : Byte) :
    Statement (.frameResponse echo conc rem chk) := fun _ => rfl

end Sys2Proof.Laws.RowPattern
end

