-- ==== Sys2Proof/Laws/Step.lean ====
section
/-! SUPPORT. What one step can do, said once: every invariant of the block is a case analysis of `step_cases`. -/

namespace Sys2Proof.Machine

/-- A decoded command frame in `WRITE_WAIT` runs `WRITE_DONE`. -/
theorem exec_commandFrame_writeWait {s : State} {f : Frame} {i : Instr} (h : decodeCommand f = .ok i)
    (hp : s.phase = .writeWait) : exec i s = .next (writeDone s) := by
  unfold decodeCommand at h
  repeat' split at h
  all_goals first
    | (cases h; done)
    | (injection h with h; subst h
       simp [exec, execFrameReadCo2, execFrameZeroCal, execFrameSpanCal, execFrameSetAbc, execFrameSetRange,
         commandFrameStep, hp])

/-- A decoded reply frame runs the reply's step on that very frame. -/
theorem exec_replyFrame {f : Frame} {i : Instr} (h : decodeReply f = .ok i) (s : State) :
    exec i s = .next (replyFrameStep f s) := by
  unfold decodeReply at h
  split at h
  · cases h
  · rename_i hb
    injection h with h
    subst h
    simp only [exec, execFrameResponse, replyBody]
    simp at hb
    simp [← hb]

/-- Reading the frame in flight as the instruction, or the request in progress, comes to the same step. -/
theorem exec_frameOr_writeWait {s : State} (f : Frame) (hp : s.phase = .writeWait) :
    exec (frameOr (decodeCommand f) s) s = .next (writeDone s) := by
  cases hd : decodeCommand f with
  | ok i => exact exec_commandFrame_writeWait hd hp
  | error e => rw [frameOr, inProgress, exec_requestInstr, requestStep_writeWait hp]

/-- Likewise for the reply that waits in `READ_WAIT`. -/
theorem exec_replyInstr {s : State} {r : ReadReply} {rest : List ReadReply} (hp : s.phase = .readWait)
    (hr : s.readReplies = r :: rest) : exec (replyInstr r s) s = .next (readDone s) := by
  have own : exec (inProgress s) s = .next (readDone s) := by
    rw [inProgress, exec_requestInstr, requestStep_readWait hp]
  cases r with
  | timeout n f => exact own
  | error n f => exact own
  | data n f =>
    by_cases h9 : n = 9
    · subst h9
      cases hd : decodeReply f with
      | error e => simpa [replyInstr, frameOr, hd] using own
      | ok i =>
        simp only [replyInstr, if_true, frameOr, hd]
        rw [exec_replyFrame hd]
        simp [replyFrameStep, hp, readDone, hr, onReadReply]
    · simpa [replyInstr, h9] using own

/-- Likewise for the frame in `RXBUF` in `PARSE`. -/
theorem exec_fetch_parse {s : State} (hp : s.phase = .parse) :
    exec (if s.rxlen = 9 then frameOr (decodeReply s.rxbuf) s else inProgress s) s = .next (parseDone s) := by
  have own : exec (inProgress s) s = .next (parseDone s) := by
    rw [inProgress, exec_requestInstr, requestStep_parse hp]
  split
  · rename_i h9
    cases hd : decodeReply s.rxbuf with
    | error e => exact own
    | ok i => rw [frameOr, exec_replyFrame hd]; simp [replyFrameStep, hp, parseDone, h9]
  · exact own

/-- Everything a step can do: take `RST`; wait; accept; or the step of the phase it is in. -/
theorem step_cases {s t : State} (h : step s = .next t) :
    (s.rst = true ∧ t = takeReset s) ∨
    (s.rst = false ∧
      ((t = s ∧ (s.phase = .idle ∧ s.requests = [] ∨ Stuck s)) ∨
      (∃ w rest, s.phase = .idle ∧ s.requests = w :: rest ∧
        t = accept (wordOp s.cfg.argW w) (wordArg s.cfg.argW w) s) ∨
      (s.phase = .dispatch ∧ t = dispatchOf s.cmdOp s.cmdArg s) ∨
      (s.phase = .openWait ∧ s.openReplies ≠ [] ∧ t = openDone s) ∨
      (s.phase = .writeWait ∧ s.writeReplies ≠ [] ∧ t = writeDone s) ∨
      (s.phase = .readWait ∧ s.readReplies ≠ [] ∧ t = readDone s) ∨
      (s.phase = .parse ∧ t = parseDone s))) := by
  cases hr : s.rst with
  | true =>
    rw [step_of_rst hr] at h
    injection h with h
    exact .inl ⟨rfl, h.symm⟩
  | false =>
    refine .inr ⟨rfl, ?_⟩
    cases hp : s.phase with
    | idle =>
      cases hq : s.requests with
      | nil =>
        rw [step_of_no_fetch hr (by simp [fetch, hp, hq])] at h
        injection h with h
        exact .inl ⟨h.symm, .inl ⟨rfl, rfl⟩⟩
      | cons w rest =>
        rw [step_of_fetch hr (i := decodeRequest s.cfg.argW w) (by simp [fetch, hp, hq]), decodeRequest, exec_requestInstr,
          requestStep_idle hp] at h
        injection h with h
        exact .inr (.inl ⟨w, rest, rfl, rfl, h.symm⟩)
    | dispatch =>
      rw [step_of_fetch hr (i := inProgress s) (by simp [fetch, hp]), inProgress, exec_requestInstr,
        requestStep_dispatch hp] at h
      injection h with h
      exact .inr (.inr (.inl ⟨rfl, h.symm⟩))
    | openWait =>
      cases ho : s.openReplies with
      | nil =>
        rw [step_of_no_fetch hr (by simp [fetch, hp, ho])] at h
        injection h with h
        exact .inl ⟨h.symm, .inr ⟨.inl hp, by simp [ReplyWaits, hp, ho]⟩⟩
      | cons b rest =>
        rw [step_of_fetch hr (i := inProgress s) (by simp [fetch, hp, ho]), inProgress, exec_requestInstr,
          requestStep_openWait hp] at h
        injection h with h
        exact .inr (.inr (.inr (.inl ⟨rfl, by simp, h.symm⟩)))
    | writeWait =>
      cases ho : s.writeReplies with
      | nil =>
        rw [step_of_no_fetch hr (by simp [fetch, hp, ho])] at h
        injection h with h
        exact .inl ⟨h.symm, .inr ⟨.inr (.inl hp), by simp [ReplyWaits, hp, ho]⟩⟩
      | cons r rest =>
        rw [step_of_fetch hr (i := frameOr (decodeCommand s.txbuf) s) (by simp [fetch, hp, ho]),
          exec_frameOr_writeWait _ hp] at h
        injection h with h
        exact .inr (.inr (.inr (.inr (.inl ⟨rfl, by simp, h.symm⟩))))
    | readWait =>
      cases ho : s.readReplies with
      | nil =>
        rw [step_of_no_fetch hr (by simp [fetch, hp, ho])] at h
        injection h with h
        exact .inl ⟨h.symm, .inr ⟨.inr (.inr hp), by simp [ReplyWaits, hp, ho]⟩⟩
      | cons r rest =>
        rw [step_of_fetch hr (i := replyInstr r s) (by simp [fetch, hp, ho]), exec_replyInstr hp ho] at h
        injection h with h
        exact .inr (.inr (.inr (.inr (.inr (.inl ⟨rfl, by simp, h.symm⟩)))))
    | parse =>
      rw [step_of_fetch hr (i := if s.rxlen = 9 then frameOr (decodeReply s.rxbuf) s else inProgress s)
        (by simp [fetch, hp]), exec_fetch_parse hp] at h
      injection h with h
      exact .inr (.inr (.inr (.inr (.inr (.inr ⟨rfl, h.symm⟩)))))

/-- The moves of the block, each with the condition under which a step makes it: all that `step_cases` and the case
lemmas of the shared operations say, in one list. -/
inductive Moves (s : State) : State → Prop where
  | reset : s.rst = true → Moves s (takeReset s)
  | waitIdle : s.rst = false → s.phase = .idle → s.requests = [] → Moves s s
  | waitStuck : s.rst = false → Stuck s → Moves s s
  | accept (w : ReqWord) (rest : List ReqWord) : s.rst = false → s.phase = .idle → s.requests = w :: rest →
      Moves s (accept (wordOp s.cfg.argW w) (wordArg s.cfg.argW w) s)
  | startOpen : s.rst = false → s.phase = .dispatch → s.cmdOp = .connect → MayReopen s → Moves s (startOpen s)
  | connected : s.rst = false → s.phase = .dispatch → s.cmdOp = .connect → s.conn = .opened →
      Moves s (complete .ok none s)
  | connectRefused : s.rst = false → s.phase = .dispatch → s.cmdOp = .connect → s.conn = .closed →
      s.cfg.reopenAllowed = false → Moves s (complete .connectionError none s)
  | close : s.rst = false → s.phase = .dispatch → s.cmdOp = .close → s.conn = .opened →
      Moves s (complete .ok none { s with conn := .closed, calls := s.calls ++ [.tClose] })
  | closedAlready : s.rst = false → s.phase = .dispatch → s.cmdOp = .close → s.conn ≠ .opened →
      Moves s (complete .ok none s)
  | reserved : s.rst = false → s.phase = .dispatch → s.cmdOp = .reserved7 →
      Moves s (complete .invalidArgument none s)
  | badArgument : s.rst = false → s.phase = .dispatch → isSensor s.cmdOp = true →
      buildRequest s.cfg s.cmdOp s.cmdArg = none → Moves s (complete .invalidArgument none s)
  | notConnected (f : Frame) : s.rst = false → s.phase = .dispatch → isSensor s.cmdOp = true →
      buildRequest s.cfg s.cmdOp s.cmdArg = some f → s.conn ≠ .opened → Moves s (complete .notConnected none s)
  | transmit (f : Frame) : s.rst = false → s.phase = .dispatch → isSensor s.cmdOp = true →
      buildRequest s.cfg s.cmdOp s.cmdArg = some f → s.conn = .opened → Moves s (transmit f s)
  | opened (rest : List Bool) : s.rst = false → s.phase = .openWait → s.openReplies = true :: rest →
      Moves s (complete .ok none { s with openReplies := rest, conn := .opened })
  | openFailed (rest : List Bool) : s.rst = false → s.phase = .openWait → s.openReplies = false :: rest →
      Moves s (complete .connectionError none { s with openReplies := rest })
  | writeError (n : BitVec 4) (rest : List WriteReply) : s.rst = false → s.phase = .writeWait →
      s.writeReplies = .error n :: rest → Moves s (complete .transportError none { s with writeReplies := rest })
  | writeShort (n : Fin 10) (rest : List WriteReply) : s.rst = false → s.phase = .writeWait →
      s.writeReplies = .count n :: rest → n.val < 9 →
      Moves s (complete .partialWrite none { s with writeReplies := rest })
  | written (n : Fin 10) (rest : List WriteReply) : s.rst = false → s.phase = .writeWait →
      s.writeReplies = .count n :: rest → n.val = 9 → Moves s (startRead 1 { s with writeReplies := rest })
  | retry (n : BitVec 4) (f : Frame) (rest : List ReadReply) : s.rst = false → s.phase = .readWait →
      s.readReplies = .timeout n f :: rest → s.attempt.toNat < 3 →
      Moves s (startRead (s.attempt + 1) { s with readReplies := rest })
  | readFailed (n : BitVec 4) (f : Frame) (rest : List ReadReply) : s.rst = false → s.phase = .readWait →
      s.readReplies = .timeout n f :: rest → ¬ s.attempt.toNat < 3 →
      Moves s (complete .readFailed none { s with readReplies := rest })
  | readError (n : BitVec 4) (f : Frame) (rest : List ReadReply) : s.rst = false → s.phase = .readWait →
      s.readReplies = .error n f :: rest → Moves s (complete .transportError none { s with readReplies := rest })
  | readShort (n : Fin 10) (f : Frame) (rest : List ReadReply) : s.rst = false → s.phase = .readWait →
      s.readReplies = .data n f :: rest → n.val < 9 →
      Moves s (complete .incompleteResponse none { s with readReplies := rest })
  | received (f : Frame) (rest : List ReadReply) : s.rst = false → s.phase = .readWait →
      s.readReplies = .data 9 f :: rest → Moves s (storeReply f { s with readReplies := rest })
  | parsed (r : Response) : s.rst = false → s.phase = .parse → parse s.rxlen s.rxbuf = .ok r →
      Moves s (complete .ok (some r) s)
  | parseFailed (e : ParseError) : s.rst = false → s.phase = .parse → parse s.rxlen s.rxbuf = .error e →
      Moves s (complete (parseStatus e) none s)

/-- What the `DISPATCH` step of the request in progress can do, as moves. -/
theorem dispatch_moves {s : State} (hr : s.rst = false) (hp : s.phase = .dispatch) :
    Moves s (dispatchOf s.cmdOp s.cmdArg s) := by
  cases hs : isSensor s.cmdOp with
  | true =>
    rw [dispatchOf_sensor hs]
    rcases sensorDispatch_cases s.cmdOp (argBits s.cfg.argW s.cmdArg) s with ⟨hb, h⟩ | ⟨f, hb, hc, h⟩ | ⟨f, hb, hc, h⟩ <;> rw [h]
    · exact .badArgument hr hp hs hb
    · exact .transmit f hr hp hs hb hc
    · exact .notConnected f hr hp hs hb hc
  | false =>
    cases ho : s.cmdOp <;> rw [ho] at hs <;> try (cases hs; done)
    · simp only [dispatchOf]
      rcases connectDispatch_cases s with ⟨hc, h⟩ | ⟨hc, h⟩ | ⟨hc, hn, h⟩ <;> rw [h]
      · exact .startOpen hr hp ho hc
      · exact .connected hr hp ho hc
      · exact .connectRefused hr hp ho hc hn
    · simp only [dispatchOf]
      rcases closeDispatch_cases s with ⟨hc, h⟩ | ⟨hc, h⟩ <;> rw [h]
      · exact .close hr hp ho hc
      · exact .closedAlready hr hp ho hc
    · exact .reserved hr hp ho

/-- Everything a step can do. -/
theorem step_moves {s t : State} (h : step s = .next t) : Moves s t := by
  rcases step_cases h with ⟨hr, rfl⟩ | ⟨hr, h⟩
  · exact .reset hr
  rcases h with ⟨rfl, ⟨hp, hq⟩ | hs⟩ | ⟨w, rest, hp, hq, rfl⟩ | ⟨hp, rfl⟩ | ⟨hp, hn, rfl⟩ | ⟨hp, hn, rfl⟩ |
    ⟨hp, hn, rfl⟩ | ⟨hp, rfl⟩
  · exact .waitIdle hr hp hq
  · exact .waitStuck hr hs
  · exact .accept w rest hr hp hq
  · exact dispatch_moves hr hp
  · rcases openDone_cases s with ⟨hq, -⟩ | ⟨rest, hq, h⟩ | ⟨rest, hq, h⟩
    · exact absurd hq hn
    · rw [h]; exact .opened rest hr hp hq
    · rw [h]; exact .openFailed rest hr hp hq
  · rcases writeDone_cases s with ⟨hq, -⟩ | ⟨n, rest, hq, h⟩ | ⟨n, rest, hq, hl, h⟩ | ⟨n, rest, hq, hl, h⟩
    · exact absurd hq hn
    · rw [h]; exact .writeError n rest hr hp hq
    · rw [h]; exact .writeShort n rest hr hp hq hl
    · rw [h]; exact .written n rest hr hp hq hl
  · rcases readDone_cases s with ⟨hq, -⟩ | ⟨n, f, rest, hq, ha, h⟩ | ⟨n, f, rest, hq, ha, h⟩ | ⟨n, f, rest, hq, h⟩ |
      ⟨n, f, rest, hq, hl, h⟩ | ⟨f, rest, hq, h⟩
    · exact absurd hq hn
    · rw [h]; exact .retry n f rest hr hp hq ha
    · rw [h]; exact .readFailed n f rest hr hp hq ha
    · rw [h]; exact .readError n f rest hr hp hq
    · rw [h]; exact .readShort n f rest hr hp hq hl
    · rw [h]; exact .received f rest hr hp hq
  · rw [parseDone]
    rcases judge_cases s.rxlen s.rxbuf s with ⟨r, hq, h⟩ | ⟨e, hq, h⟩ <;> rw [h]
    · exact .parsed r hr hp hq
    · exact .parseFailed e hr hp hq

/-- No step changes the parameters. -/
theorem step_cfg {s t : State} (h : step s = .next t) : t.cfg = s.cfg := by
  cases step_moves h <;> simp

/-- What holds after reset and is kept by every step and by whatever may arrive at the ports holds in every reachable
state. -/
theorem reachable_keeps {P : State → Prop} {cfg : Config} (start : P { State.reset with cfg := cfg })
    (ofStep : ∀ s t : State, Reachable cfg s → P s → step s = .next t → P t)
    (ofRequest : ∀ s w, P s → P (presentRequest w s)) (ofRst : ∀ s, P s → P (assertRst s))
    (ofOpen : ∀ s l, P s → P { s with openReplies := l }) (ofWrite : ∀ s l, P s → P { s with writeReplies := l })
    (ofRead : ∀ s l, P s → P { s with readReplies := l }) {s : State} (h : Reachable cfg s) : P s := by
  induction h with
  | reset => exact start
  | step h hs ih => exact ofStep _ _ h ih hs
  | request w h ih => exact ofRequest _ _ ih
  | rst h ih => exact ofRst _ ih
  | answerOpen b h ih =>
    unfold answerOpen
    split
    exacts [ofOpen _ _ ih, ih]
  | answerWrite k c h hs ih =>
    unfold answerWrite at hs
    split at hs
    · cases hs
    · injection hs with hs
      subst hs
      split
      exacts [ofWrite _ _ ih, ih]
  | answerRead k c b h hs ih =>
    unfold answerRead at hs
    split at hs
    · cases hs
    · injection hs with hs
      subst hs
      split
      exacts [ofRead _ _ ih, ih]

end Sys2Proof.Machine
end

