-- ==== Sys2Proof/Laws/Run.lean ====
section
/-! SUPPORT. Runs (70_reset_and_hazards.md R184): every request presented is on the port, in progress or completed, and
so a run is over exactly when the completion of its last request has been emitted. -/

namespace Sys2Proof.Machine

/-- The state after power-on starts a run, whatever the parameters. -/
theorem afterReset_reset (cfg : Config) : AfterReset { State.reset with cfg := cfg } := by
  simp [AfterReset, State.reset]

/-- So does the state that `RST` leaves, where the host holds no request. -/
theorem afterReset_takeReset {s : State} (h : s.requests = []) : AfterReset (takeReset s) := by
  simp [AfterReset, h]

/-- The account of a run that `n` requests have been presented in, after a reset that found `c` completions emitted:
every request is completed, in progress, or on the port, and in `IDLE` the result registers are valid exactly when a
request has been completed. -/
abbrev Account (c n : Nat) (s : State) : Prop :=
  s.rst = false ∧ c ≤ s.completions.length ∧
    s.completions.length + s.requests.length + (if s.phase = .idle then 0 else 1) = c + n ∧
    (s.phase = .idle → (s.resValid = true ↔ c < s.completions.length))

/-- No step changes the account. -/
theorem account_step {c n : Nat} {s t : State} (ha : Account c n s) (h : step s = .next t) : Account c n t := by
  obtain ⟨hr, hc, hn, hv⟩ := ha
  cases step_moves h <;> simp_all [Account] <;> omega

/-- The account of every run. -/
theorem run_account {r s : State} {ws : List ReqWord} (h : Run r ws s) :
    Account r.completions.length ws.length s := by
  induction h with
  | reset h => obtain ⟨-, hp, -, hv, hr, hq⟩ := h; simp [Account, hp, hv, hr, hq]
  | step h hs ih => exact account_step ih hs
  | request w h hr hq ih =>
    obtain ⟨h1, h2, h3, h4⟩ := ih
    refine ⟨h1, h2, ?_, h4⟩
    simp [presentRequest, hq] at h3 ⊢
    omega
  | answerOpen b h ih => unfold answerOpen; split <;> exact ih
  | answerWrite k c h hs ih =>
    unfold answerWrite at hs
    split at hs
    · cases hs
    · injection hs with hs; subst hs; split <;> exact ih
  | answerRead k l b h hs ih =>
    unfold answerRead at hs
    split at hs
    · cases hs
    · injection hs with hs; subst hs; split <;> exact ih

/-- 70_reset_and_hazards.md R184: a run is over exactly when there was a request, the block is in `IDLE`, and every
request, the last one with them, has had its completion. -/
theorem runOver_iff {r s : State} {ws : List ReqWord} (h : Run r ws s) :
    RunOver s ↔ ws ≠ [] ∧ s.phase = .idle ∧ s.completions.length = r.completions.length + ws.length := by
  obtain ⟨-, -, hn, hv⟩ := run_account h
  constructor
  · rintro ⟨hp, hq, hres⟩
    have := (hv hp).mp hres
    rw [if_pos hp, hq, List.length_nil] at hn
    exact ⟨List.ne_nil_of_length_pos (by omega), hp, by omega⟩
  · rintro ⟨hw, hp, hl⟩
    have := List.length_pos_of_ne_nil hw
    rw [if_pos hp] at hn
    exact ⟨hp, List.eq_nil_of_length_eq_zero (by omega), (hv hp).mpr (by omega)⟩

/-- 10_state.md R24 (g), its part about runs: `RES_VALID` = 0 in `IDLE` only between the reset and the first accept. -/
theorem run_idle_without_result {r s : State} {ws : List ReqWord} (h : Run r ws s) (hp : s.phase = .idle)
    (hv : s.resValid = false) : s.requests.length = ws.length ∧ s.completions.length = r.completions.length := by
  obtain ⟨-, hc, hn, hi⟩ := run_account h
  rw [if_pos hp] at hn
  have := hi hp
  simp [hv] at this
  omega

/-- A reset in mid-transaction has no end state: the run it cuts off is not over (95_test_vectors.md part 4). -/
theorem not_runOver_takeReset (s : State) : ¬ RunOver (takeReset s) := by simp [RunOver]

end Sys2Proof.Machine
end

