-- ==== Sys2Proof/Tests/Slice0.lean ====
section
/-! SUPPORT. Tests. Expected values are those of 95_test_vectors.md (`V<n>`, `P<n>`) or are read off the encoding tables
of 30_encoding.md by hand; each test says which. `witness_<Name>` shows states and operands that meet the hypotheses of
the obligation of that name. -/

namespace Sys2Proof.Tests

open Sys2Proof.Machine

/-! ### Small states -/

/-- An idle block in this connection state with these requests on its port. -/
def idleWith (c : Conn) (ws : List ReqWord) : State := { State.reset with conn := c, requests := ws }

/-- A request just accepted. -/
def inDispatch (c : Conn) (op : Op) (arg : Arg) : State :=
  { State.reset with conn := c, phase := .dispatch, cmdOp := op, cmdArg := arg }

/-- `CONNECT` waiting for the transport. -/
def inOpenWait (rs : List Bool) : State := { inDispatch .unopened .connect 0 with phase := .openWait, openReplies := rs }

/-- The frame of V1, first row. -/
def readFrame : Frame := bytes9 0xFF 0x01 0x86 0x00 0x00 0x00 0x00 0x00 0x79

/-- The reply of V5: 415 ppm. -/
def replyFrame : Frame := bytes9 0xFF 0x86 0x01 0x9F 0x00 0x00 0x00 0x00 0xDA

/-- `READ_CO2` waiting for the `TWrite` reply. -/
def inWriteWait (rs : List WriteReply) : State :=
  { inDispatch .opened .readCo2 0 with phase := .writeWait, txbuf := readFrame, writeReplies := rs }

/-- `READ_CO2` waiting for the reply to its read number `a`. -/
def inReadWait (a : BitVec 2) (rs : List ReadReply) : State :=
  { inWriteWait [] with phase := .readWait, attempt := a, readReplies := rs }

/-- A sensor command with nine reply bytes to judge. -/
def inParse (op : Op) (f : Frame) : State :=
  { inReadWait 1 [] with phase := .parse, cmdOp := op, rxbuf := f, rxlen := 9 }

/-- The outcome is a next state of which `p` holds. -/
def gives (o : Host.Outcome State Fault Refusal) (p : State → Bool) : Bool :=
  match o with
  | .next t => p t
  | .fault _ => false
  | .refused _ => false

/-- The last completion's top byte, as V18 writes it. -/
def lastTop (s : State) : Option Byte := s.completions.getLast?.map completionTop

/-! ### Well-formedness: one ill-formed term for each check -/

theorem test_wf_frameReadCo2 :
    wellFormed Config.standard (.frameReadCo2 0x79) = true ∧ wellFormed Config.standard (.frameReadCo2 0x78) = false := by
  decide

theorem test_wf_frameZeroCal :
    wellFormed Config.standard (.frameZeroCal 0x78) = true ∧ wellFormed Config.standard (.frameZeroCal 0x79) = false := by
  decide

/-- The document's own last byte 0x70 is wrong (V2, 90_conflicts.md C1). -/
theorem test_wf_frameSpanCal :
    wellFormed Config.standard (.frameSpanCal 2000 0xA0) = true ∧
      wellFormed Config.standard (.frameSpanCal 2000 0x70) = false := by decide

theorem test_wf_frameSetAbc :
    wellFormed Config.standard (.frameSetAbc true 0xE6) = true ∧ wellFormed Config.standard (.frameSetAbc true 0x86) = false ∧
      wellFormed Config.standard (.frameSetAbc false 0x86) = true := by decide

/-- The document's 0x55 is wrong (V1, C1). -/
theorem test_wf_frameSetRange_chk :
    wellFormed Config.standard (.frameSetRange 5000 0xCB) = true ∧
      wellFormed Config.standard (.frameSetRange 5000 0x55) = false := by decide

/-- A correct checksum on a range outside `RANGE_SET` (V13). -/
theorem test_wf_frameSetRange_member :
    Machine.commandChk 0x99 0x0F 0xA0 = 0xB7 ∧ wellFormed Config.standard (.frameSetRange 4000 0xB7) = false := by decide

/-- The document's 0xBD is wrong (V5, C2). -/
theorem test_wf_frameResponse :
    wellFormed Config.standard (.frameResponse 0x86 415 0 0xDA) = true ∧
      wellFormed Config.standard (.frameResponse 0x86 415 0 0xBD) = false := by decide

/-- 30_encoding.md R60: the argument has `ARG_W` bits; 2^32 does not fit the default port, 2^17 not one of `ARG_W` 17. -/
theorem test_wf_argument :
    wellFormed Config.standard (.readCo2 0xFFFFFFFF) = true ∧ wellFormed Config.standard (.readCo2 0x100000000) = false ∧
      wellFormed { Config.standard with argW := 17 } (.spanCal 131071) = true ∧
      wellFormed { Config.standard with argW := 17 } (.spanCal 131072) = false := by decide

/-- 00_scope.md R4: 17 is legal, 16 is not. -/
theorem test_legal_argW :
    Config.standard.Legal ∧ ({ Config.standard with argW := 17 } : Config).Legal ∧
      ¬ ({ Config.standard with argW := 16 } : Config).Legal := by decide

/-! ### Decoding: each row's word written out from 30_encoding.md R60 to R65 -/

theorem test_decode_connect : decode 32 (.req (0b000#3 ++ 0x00000000#32).toNat) = .ok (.connect 0) := by decide
theorem test_decode_close : decode 32 (.req (0b001#3 ++ 0x00000000#32).toNat) = .ok (.close 0) := by decide
theorem test_decode_readCo2 : decode 32 (.req (0b010#3 ++ 0xFFFFFFFF#32).toNat) = .ok (.readCo2 0xFFFFFFFF) := by decide
theorem test_decode_zeroCal : decode 32 (.req (0b011#3 ++ 0x0000004D#32).toNat) = .ok (.zeroCal 77) := by decide
theorem test_decode_spanCal : decode 32 (.req (0b100#3 ++ 0x00010000#32).toNat) = .ok (.spanCal 65536) := by decide
theorem test_decode_setAbc : decode 32 (.req (0b101#3 ++ 0x00000001#32).toNat) = .ok (.setAbc 1) := by decide
theorem test_decode_setRange : decode 32 (.req (0b110#3 ++ 0x00002710#32).toNat) = .ok (.setRange 10000) := by decide
theorem test_decode_reserved7 : decode 32 (.req (0b111#3 ++ 0x80000000#32).toNat) = .ok (.reserved7 0x80000000) := by decide

theorem test_decode_frameReadCo2 :
    decode 32 (.cmd9 (bytes9 0xFF 0x01 0x86 0x00 0x00 0x00 0x00 0x00 0x79)) = .ok (.frameReadCo2 0x79) := by decide
theorem test_decode_frameZeroCal :
    decode 32 (.cmd9 (bytes9 0xFF 0x01 0x87 0x00 0x00 0x00 0x00 0x00 0x78)) = .ok (.frameZeroCal 0x78) := by decide
theorem test_decode_frameSpanCal :
    decode 32 (.cmd9 (bytes9 0xFF 0x01 0x88 0x07 0xD0 0x00 0x00 0x00 0xA0)) = .ok (.frameSpanCal 2000 0xA0) := by decide
theorem test_decode_frameSetAbc :
    decode 32 (.cmd9 (bytes9 0xFF 0x01 0x79 0xA0 0x00 0x00 0x00 0x00 0xE6)) = .ok (.frameSetAbc true 0xE6) := by decide
theorem test_decode_frameSetRange :
    decode 32 (.cmd9 (bytes9 0xFF 0x01 0x99 0x13 0x88 0x00 0x00 0x00 0xCB)) = .ok (.frameSetRange 5000 0xCB) := by decide
theorem test_decode_frameResponse :
    decode 32 (.rsp9 (bytes9 0xFF 0x86 0x01 0x9F 0x12 0x34 0x56 0x78 0xC6)) =
      .ok (.frameResponse 0x86 415 0x12345678 0xC6) := by decide

/-- V17: the words of the table, and their numbering as in spec/opcode_table.json. -/
theorem test_decode_table_words :
    decodeTableWord 40 0x000000000 = some (.connect 0) ∧ decodeTableWord 40 0x100000000 = some (.close 0) ∧
      decodeTableWord 40 0x4000007D0 = some (.spanCal 2000) ∧ decodeTableWord 40 0x600002710 = some (.setRange 10000) ∧
      decodeTableWord 72 0xFF018807D0000000A0 = some (.frameSpanCal 2000 0xA0) ∧
      decodeTableWord 72 0xFF86019F00000000DA = some (.frameResponse 0x86 415 0 0xDA) := by decide

/-- V17: with `ARG_W` = 17 the same requests are 20-bit words. -/
theorem test_pack_argW17 :
    packRequest .readCo2 (0#17) = 0x40000#20 ∧ packRequest .spanCal (2000#17) = 0x807D0#20 ∧
      packRequest .spanCal (65536#17) = 0x90000#20 := by decide

/-- At `ARG_W` = 17 the words have 20 bits, and at `ARG_W` = 40 a word can be wider than the default port. -/
theorem test_decode_other_widths :
    decode 17 (.req 0x807D0) = .ok (.spanCal 2000) ∧ decode 17 (.req 0x100000) = .error .tooWide ∧
      decode 40 (.req 0x28000000001) = .ok (.readCo2 0x8000000001) := by decide

/-- What is no instruction is refused by name, and does not fall through to a neighbour (30_encoding.md R62 to R67). -/
theorem test_decode_refusals :
    decodeCommand (bytes9 0xFE 0x01 0x86 0x00 0x00 0x00 0x00 0x00 0x79) = .error .badHeader ∧
      decodeCommand (bytes9 0xFF 0x02 0x86 0x00 0x00 0x00 0x00 0x00 0x78) = .error .badAddr ∧
      decodeCommand (bytes9 0xFF 0x01 0x85 0x00 0x00 0x00 0x00 0x00 0x7A) = .error .unknownOpcode ∧
      decodeCommand (bytes9 0xFF 0x01 0x86 0x01 0x00 0x00 0x00 0x00 0x78) = .error .badData ∧
      decodeCommand (bytes9 0xFF 0x01 0x79 0x50 0x00 0x00 0x00 0x00 0x36) = .error .badData ∧
      decodeCommand (bytes9 0xFF 0x01 0x88 0x00 0x00 0x00 0x00 0x01 0x76) = .error .badData ∧
      decodeReply (bytes9 0xFE 0x86 0x01 0x9F 0x00 0x00 0x00 0x00 0xDA) = .error .badHeader ∧
      decodeWord 40 0x800000000 = .error .tooWide ∧ decodeWord 48 0 = .error .unknownWidth := by decide

/-! ### The codec -/

/-- V1 and V10. -/
theorem test_checksum :
    checksum ⟨0xFF, 0x01, 0x88, 0x07, 0xD0, 0x00, 0x00, 0x00⟩ = 0xA0 ∧
      checksum ⟨0xFF, 0xFF, 0xFF, 0xFF, 0xFF, 0xFF, 0xFF, 0xFF⟩ = 0x07 ∧
      checksum ⟨0xFF, 0x80, 0x80, 0x00, 0x00, 0x00, 0x00, 0x00⟩ = 0x00 ∧
      checksum ⟨0x12, 0x34, 0x56, 0x78, 0x9A, 0xBC, 0xDE, 0xF0⟩ = 0xDA := by decide

/-- V18: the full word of V5's completion, and the Response fields without value. -/
theorem test_completionBits :
    completionBits ⟨.ok, 1, true, true, some ⟨0x86, 415, 0, 0xDA⟩⟩ = some 0x0786019F00000000DA#72 ∧
      completionBits ⟨.checksumMismatch, 1, false, false, none⟩ = none := by decide

/-! ### One step of each instruction -/

/-- 00_scope.md R4: a block of `ARG_W` = 17 takes V17's 20-bit word, a block of `ARG_W` = 40 the whole 40-bit argument, of
which no upper bit is dropped (40_frame_codec.md R88). -/
theorem test_other_widths :
    gives (step { idleWith .opened [0x807D0] with cfg := { Config.standard with argW := 17 } })
        (fun t => t.cmdOp == .spanCal && t.cmdArg == 2000 && t.phase == .dispatch) = true ∧
      gives (step { idleWith .opened [0x6FF000003E8] with cfg := { Config.standard with argW := 40 } })
        (fun t => t.cmdOp == .setRange && t.cmdArg == 0xFF000003E8) = true ∧
      gives (exec (.setRange 0xFF000003E8)
          { inDispatch .opened .setRange 0xFF000003E8 with cfg := { Config.standard with argW := 40 } })
        (fun t => t.calls == [] && lastTop t == some 0x60) = true := by decide

/-- V16: `connect()` on `Unopened` and on `Closed`. -/
theorem test_connect_dispatch :
    gives (exec (.connect 0) (inDispatch .unopened .connect 0)) (fun t => t.calls == [.tOpen] && t.phase == .openWait) = true ∧
      gives (exec (.connect 0) (inDispatch .closed .connect 0))
        (fun t => t.calls == [] && lastTop t == some 0x80 && t.conn == .closed) = true := by decide

/-- V16: the transport is not ready. -/
theorem test_connect_notready :
    gives (exec (.connect 0) (inOpenWait [false])) (fun t => t.conn == .unopened && lastTop t == some 0x80) = true := by
  decide

/-- V16: `close()` tells the transport only when open. -/
theorem test_close_opened :
    gives (exec (.close 0) (inDispatch .opened .close 0))
      (fun t => t.calls == [.tClose] && t.conn == .closed && lastTop t == some 0x00) = true := by decide

theorem test_close_unopened :
    gives (exec (.close 0) (inDispatch .unopened .close 0))
      (fun t => t.calls == [] && t.conn == .unopened && lastTop t == some 0x00) = true := by decide

/-- V11: the argument is ignored. -/
theorem test_readCo2_sends :
    gives (exec (.readCo2 0xFFFFFFFF) (inDispatch .opened .readCo2 0xFFFFFFFF))
      (fun t => t.calls == [.tWrite readFrame] && t.txbuf == readFrame) = true := by decide

/-- V5 row 1 and V6 row 1. -/
theorem test_readCo2_judged :
    gives (exec (.readCo2 0) (inParse .readCo2 replyFrame)) (fun t => t.resConc == 415 && lastTop t == some 0x07) = true ∧
      gives (exec (.readCo2 0) (inParse .readCo2 { replyFrame with b0 := 0xFE })) (fun t => lastTop t == some 0x14) = true := by
  decide

/-- V11. -/
theorem test_zeroCal_sends :
    gives (exec (.zeroCal 0x4D) (inDispatch .opened .zeroCal 0x4D))
      (fun t => t.calls == [.tWrite (bytes9 0xFF 0x01 0x87 0x00 0x00 0x00 0x00 0x00 0x78)]) = true := by decide

/-- P3 row 7, for `zero_calibrate`. -/
theorem test_zeroCal_notConnected :
    gives (exec (.zeroCal 0) (inDispatch .closed .zeroCal 0)) (fun t => t.calls == [] && lastTop t == some 0x70) = true := by
  decide

/-- V2 and V11: 2000, and the first illegal value. -/
theorem test_spanCal_sends :
    gives (exec (.spanCal 2000) (inDispatch .opened .spanCal 2000))
      (fun t => t.calls == [.tWrite (bytes9 0xFF 0x01 0x88 0x07 0xD0 0x00 0x00 0x00 0xA0)]) = true := by decide

theorem test_spanCal_tooLarge :
    gives (exec (.spanCal 65536) (inDispatch .opened .spanCal 65536))
      (fun t => t.calls == [] && lastTop t == some 0x60) = true := by decide

/-- V11: only bit 0 is read. -/
theorem test_setAbc_sends :
    gives (exec (.setAbc 3) (inDispatch .opened .setAbc 3))
      (fun t => t.calls == [.tWrite (bytes9 0xFF 0x01 0x79 0xA0 0x00 0x00 0x00 0x00 0xE6)]) = true ∧
      gives (exec (.setAbc 2) (inDispatch .opened .setAbc 2))
        (fun t => t.calls == [.tWrite (bytes9 0xFF 0x01 0x79 0x00 0x00 0x00 0x00 0x00 0x86)]) = true := by decide

/-- P4 row 3: another command's reply is an acknowledgement, and no reading. -/
theorem test_setAbc_takes_any_echo :
    gives (exec (.setAbc 1) (inParse .setAbc replyFrame)) (fun t => t.resEcho == 0x86 && lastTop t == some 0x06) = true := by
  decide

/-- V13 row 2. -/
theorem test_setRange_sends :
    gives (exec (.setRange 3000) (inDispatch .opened .setRange 3000))
      (fun t => t.calls == [.tWrite (bytes9 0xFF 0x01 0x99 0x0B 0xB8 0x00 0x00 0x00 0xA3)]) = true := by decide

/-- V11: 66536 has the low half of 1000 and is refused. -/
theorem test_setRange_whole_argument :
    gives (exec (.setRange 66536) (inDispatch .opened .setRange 66536))
      (fun t => t.calls == [] && lastTop t == some 0x60) = true := by decide

/-- 42_operations.md R127: on a block that was never opened. -/
theorem test_reserved7 :
    gives (exec (.reserved7 0) (inDispatch .unopened .reserved7 0)) (fun t => t.calls == [] && lastTop t == some 0x60) = true := by
  decide

/-- V6 rows 4 and 5: a short write, and the third timeout. -/
theorem test_short_write_and_third_timeout :
    gives (step (inWriteWait [.count 8])) (fun t => lastTop t == some 0x40 && t.calls == []) = true ∧
      gives (step (inReadWait 3 [.timeout 15 zeroFrame])) (fun t => lastTop t == some 0x5C && t.calls == []) = true := by decide

theorem test_frameReadCo2 :
    gives (exec (.frameReadCo2 0x79) (inWriteWait [.count 9]))
      (fun t => t.calls == [.tRead] && t.attempt == 1 && t.phase == .readWait) = true := by decide

theorem test_frameZeroCal :
    gives (exec (.frameZeroCal 0x00) (inDispatch .opened .zeroCal 0)) (fun t => t.txbuf.b8 == 0x78) = true := by decide

theorem test_frameSpanCal :
    gives (exec (.frameSpanCal 65535 0x79) (inDispatch .opened .spanCal 65535))
      (fun t => t.calls == [.tWrite (bytes9 0xFF 0x01 0x88 0xFF 0xFF 0x00 0x00 0x00 0x79)]) = true := by decide

theorem test_frameSetAbc :
    gives (exec (.frameSetAbc false 0x86) (inDispatch .opened .setAbc 0)) (fun t => t.txbuf.b3 == 0x00) = true := by decide

theorem test_frameSetRange :
    gives (exec (.frameSetRange 4000 0xB7) (inDispatch .opened .setRange 4000))
      (fun t => t.calls == [] && lastTop t == some 0x60) = true := by decide

theorem test_frameResponse_taken :
    gives (exec (.frameResponse 0x86 415 0 0xDA) (inReadWait 2 [.data 9 replyFrame]))
      (fun t => t.rxbuf == replyFrame && t.rxlen == 9 && t.phase == .parse && t.readReplies == []) = true := by decide

theorem test_frameResponse_judged :
    gives (exec (.frameResponse 0x86 415 0 0xBD) (inParse .readCo2 replyFrame)) (fun t => lastTop t == some 0x24) = true := by
  decide

/-- A placed word is the next one run. -/
theorem test_withFetchWord :
    fetch (State.reset.withFetchWord 40 0x4000007D0) = some (.spanCal 2000) ∧
      fetch (State.reset.withFetchWord 72 0xFF018807D0000000A0) = some (.frameSpanCal 2000 0xA0) ∧
      fetch (State.reset.withFetchWord 72 0xFF86019F00000000DA) = some (.frameResponse 0x86 415 0 0xDA) := by decide

/-- 20_memory.md R44, R45: 9 is the largest count; only the fields that a reply uses are checked. -/
theorem test_reserved_reply_codes :
    answerWrite 0 10 State.reset = .refused .reservedWriteReply ∧ answerWrite 0 9 State.reset = .next State.reset ∧
      answerWrite 1 15 State.reset = .next State.reset ∧
      answerRead 0 10 zeroFrame State.reset = .refused .reservedReadReply ∧
      answerRead 3 0 zeroFrame State.reset = .refused .reservedReadReply ∧
      answerRead 1 15 zeroFrame State.reset = .next State.reset := ⟨rfl, rfl, rfl, rfl, rfl, rfl⟩

/-- 70_reset_and_hazards.md R170 to R172: in mid-transaction, with the outstanding reply waiting. -/
theorem test_rst_mid_transaction :
    gives (step (assertRst (inReadWait 2 [.data 9 replyFrame]))) (fun t =>
      t.conn == .unopened && t.phase == .idle && t.attempt == 0 && t.readReplies == [] && t.calls == [] &&
        t.completions == []) = true := by decide

/-- 70_reset_and_hazards.md R184, 95_test_vectors.md part 4: `RST` in mid-transaction leaves no end of a run; the close
that completes does. -/
theorem test_runOver :
    gives (step (assertRst (inReadWait 2 []))) (fun t => t.phase == .idle && t.requests == [] && !decide (RunOver t)) = true ∧
      gives (exec (.close 0) (inDispatch .opened .close 0)) (fun t => decide (RunOver t)) = true := by decide

/-- 70_reset_and_hazards.md R184: a run of one request, `RESERVED7`, from power-on to its end. -/
theorem test_run : ∃ s, Run State.reset [requestWord 32 .reserved7 0] s ∧ RunOver s :=
  ⟨_, (((Run.reset (by decide)).request (requestWord 32 .reserved7 0) rfl rfl).step rfl).step rfl, by decide⟩

/-! ### Witnesses: the hypotheses of each obligation, met, clause by clause -/

/-- An idle block that is reachable: the host has presented a request. -/
def asked : State := presentRequest (requestWord 32 .readCo2 0) State.reset

/-- A state with `RST` asserted in each wait phase, its reply on the channel. -/
def resetIn (p : Phase) : State :=
  { inDispatch .opened .readCo2 0 with
    phase := p, rst := true, openReplies := [true], writeReplies := [.count 9], readReplies := [.error 0 zeroFrame] }

theorem witness_StepKeepsInvariants :
    (BlockInv (inReadWait 3 [.data 9 replyFrame]) ∧ ∃ t, step (inReadWait 3 [.data 9 replyFrame]) = .next t) ∧
      (BlockInv (inOpenWait [true]) ∧ ∃ t, step (inOpenWait [true]) = .next t) ∧
      (BlockInv (inParse .readCo2 replyFrame) ∧ ∃ t, step (inParse .readCo2 replyFrame) = .next t) :=
  ⟨⟨by decide, _, rfl⟩, ⟨by decide, _, rfl⟩, ⟨by decide, _, rfl⟩⟩

theorem witness_ReachableStatesMeetInvariants :
    Reachable Config.standard asked ∧ ∃ t, Reachable Config.standard t ∧ t.phase = .dispatch :=
  ⟨.request _ .reset, _, .step (.request (requestWord 32 .readCo2 0) .reset) rfl, rfl⟩

theorem witness_ResetInputTakesResetState :
    (resetIn .idle).rst = true ∧ (resetIn .openWait).rst = true ∧ (resetIn .writeWait).rst = true ∧
      (resetIn .readWait).rst = true := by decide

theorem witness_StepRunsDecodedInstruction :
    (asked.rst = false ∧ asked.phase = .idle ∧ asked.requests = requestWord 32 .readCo2 0 :: [] ∧
      decode 32 (.req (requestWord 32 .readCo2 0)) = .ok (.readCo2 0)) ∧
    ((inDispatch .opened .readCo2 0).rst = false ∧ (inDispatch .opened .readCo2 0).phase = .dispatch) ∧
    ((inOpenWait [true]).rst = false ∧ (inOpenWait [true]).phase = .openWait ∧ (inOpenWait [true]).openReplies ≠ []) ∧
    ((inWriteWait [.count 9]).rst = false ∧ (inWriteWait [.count 9]).phase = .writeWait ∧
      (inWriteWait [.count 9]).writeReplies ≠ [] ∧
      decode 32 (.cmd9 (inWriteWait [.count 9]).txbuf) = .ok (.frameReadCo2 0x79)) ∧
    ((inReadWait 1 [.data 9 replyFrame]).rst = false ∧ (inReadWait 1 [.data 9 replyFrame]).phase = .readWait ∧
      (inReadWait 1 [.data 9 replyFrame]).readReplies = .data 9 replyFrame :: [] ∧
      decode 32 (.rsp9 replyFrame) = .ok (.frameResponse 0x86 415 0 0xDA)) ∧
    ((inParse .readCo2 replyFrame).rst = false ∧ (inParse .readCo2 replyFrame).phase = .parse ∧
      (inParse .readCo2 replyFrame).rxlen = 9 ∧
      decode 32 (.rsp9 (inParse .readCo2 replyFrame).rxbuf) = .ok (.frameResponse 0x86 415 0 0xDA)) := by decide

theorem witness_StepRunsRequestInProgress :
    (inWriteWait [.count 9]).rst = false ∧ (inWriteWait [.count 9]).phase ≠ .idle ∧ fetch (inWriteWait [.count 9]) ≠ none ∧
      fetch (inReadWait 1 [.timeout 0 zeroFrame]) ≠ none ∧ fetch (inParse .readCo2 replyFrame) ≠ none := by decide

theorem witness_IdleBlockKeepsAllState :
    State.reset.rst = false ∧ State.reset.phase = .idle ∧ State.reset.requests = [] := by decide

theorem witness_UnansweredCallHoldsBlock :
    (inOpenWait []).rst = false ∧ Stuck (inOpenWait []) ∧ (inWriteWait []).rst = false ∧ Stuck (inWriteWait []) ∧
      (inReadWait 2 []).rst = false ∧ Stuck (inReadWait 2 []) := by decide

/-- The largest argument of the default width, of the least legal width, and a frame, at which the width does not matter. -/
theorem witness_DecodeAfterEncode :
    argFits 32 (.spanCal 0xFFFFFFFF) = true ∧ argFits 17 (.setAbc 131071) = true ∧
      argFits 0 (.frameSpanCal 65535 0x79) = true := by decide

/-- The largest word of the default port, and the first number that is no word of it. -/
theorem witness_EncodeAfterDecodeRequest : 0x7FFFFFFFF < 2 ^ (3 + 32) ∧ 2 ^ (3 + 32) ≤ 0x800000000 := by decide

theorem witness_EncodeAfterDecodeFrame :
    decodeCommand readFrame = .ok (.frameReadCo2 0x79) ∧
      decodeReply replyFrame = .ok (.frameResponse 0x86 415 0 0xDA) := by decide

/-- A request, a command frame, and a reply frame that is no command frame. -/
theorem witness_TableWordDecodes :
    argFits 32 (.readCo2 0xFFFFFFFF) = true ∧
      (∀ f j, encode 32 (.readCo2 0xFFFFFFFF) = .rsp9 f → decodeCommand f ≠ .ok j) ∧
      (∀ f j, encode 32 (.frameReadCo2 0x79) = .rsp9 f → decodeCommand f ≠ .ok j) ∧
      (∀ f j, encode 32 (.frameResponse 0x86 415 0 0xDA) = .rsp9 f → decodeCommand f ≠ .ok j) := by
  refine ⟨by decide, by simp [encode], by simp [encode], ?_⟩
  intro f j h
  obtain rfl : { toBody := replyBody 0x86 415 0, b8 := 0xDA } = f := by simpa [encode] using h
  simp [decodeCommand, replyBody]

theorem witness_CompletionWordFields :
    (Completion.mk .ok 0 false false none).rsp = none ∧
      (Completion.mk .ok 1 true true (some ⟨0x86, 415, 0, 0xDA⟩)).rsp = some ⟨0x86, 415, 0, 0xDA⟩ := by decide

theorem witness_StatusCodesAndFamilies : statusCode .ok = statusCode .ok := rfl

theorem witness_SingleByteErrorDetected :
    valid9 replyFrame = true ∧ (0x87 : Byte) ≠ replyFrame.b1 ∧ (0 : Byte) ≠ replyFrame.b2 ∧ (0 : Byte) ≠ replyFrame.b3 ∧
      (1 : Byte) ≠ replyFrame.b4 ∧ (1 : Byte) ≠ replyFrame.b5 ∧ (1 : Byte) ≠ replyFrame.b6 ∧ (1 : Byte) ≠ replyFrame.b7 ∧
      (0xDB : Byte) ≠ replyFrame.b8 := by decide

theorem witness_ValidFramesAreSevenFreeBytes :
    valid9 replyFrame = true ∧ replyFrame.b1 = 0x86 ∧ replyFrame.b2 = 0x01 ∧ replyFrame.b3 = 0x9F ∧ replyFrame.b4 = 0 ∧
      replyFrame.b5 = 0 ∧ replyFrame.b6 = 0 ∧ replyFrame.b7 = 0 := by decide

/-- The largest legal value and the first illegal one (V11). -/
theorem witness_BuildSpanCalFrame :
    (65535#32).toNat = (0xFF : Byte).toNat * 256 + (0xFF : Byte).toNat ∧ 65535 < (65536#32).toNat ∧
      65535 < (65536#17).toNat := by simp

theorem witness_BuildSetRangeFrame :
    ((1000 : BitVec 16) ∈ Config.standard.rangeSet ∧ (1000 : BitVec 16).toNat = (1000#32).toNat ∧
      (1000#32).toNat = (0x03 : Byte).toNat * 256 + (0xE8 : Byte).toNat) ∧
    (∀ r ∈ Config.standard.rangeSet, r.toNat ≠ (1001#32).toNat) ∧
    (∀ r ∈ Config.standard.rangeSet, r.toNat ≠ (66536#32).toNat) := by
  refine ⟨⟨by decide, by simp, by simp⟩, by simp [Config.standard], by simp [Config.standard]⟩

theorem witness_BuiltFramesAreValidAndLoopBack : build Config.standard .readCo2 0#32 = some readFrame := by decide

theorem witness_ParseChecksInOrder :
    (8 : Fin 10).val < 9 ∧ ((9 : Fin 10).val = 9 ∧ (zeroFrame).b0 ≠ 0xFF) ∧
      ((9 : Fin 10).val = 9 ∧ ({ replyFrame with b8 := 0xBD } : Frame).b0 = 0xFF ∧
        checksum ({ replyFrame with b8 := 0xBD } : Frame).toBody ≠ ({ replyFrame with b8 := 0xBD } : Frame).b8) ∧
      ((9 : Fin 10).val = 9 ∧ replyFrame.b0 = 0xFF ∧ checksum replyFrame.toBody = replyFrame.b8) := by decide

theorem witness_AcceptLatchesRequest :
    (asked.rst = false ∧ asked.phase = .idle ∧ 0 < 2 ^ asked.cfg.argW ∧
        asked.requests = requestWord asked.cfg.argW .readCo2 0 :: []) ∧
      ((inWriteWait [.count 9]).rst = false ∧ (inWriteWait [.count 9]).phase ≠ .idle ∧
        ∃ t, step (inWriteWait [.count 9]) = .next t) :=
  ⟨by decide, by decide, by decide, _, rfl⟩

/-- A connection that was closed, on a block that may reopen. -/
def reopening : State :=
  { inDispatch .closed .connect 0 with cfg := { Config.standard with reopenAllowed := true } }

theorem witness_ConnectRequest :
    (inDispatch .unopened .connect 0).cmdOp = .connect ∧ (inDispatch .unopened .connect 0).phase = .dispatch ∧
      (inDispatch .unopened .connect 0).conn = .unopened ∧ (inDispatch .opened .connect 0).conn = .opened ∧
      (reopening.cmdOp = .connect ∧ reopening.phase = .dispatch ∧ reopening.conn = .closed ∧
        reopening.cfg.reopenAllowed = true) ∧
      ((inDispatch .closed .connect 0).conn = .closed ∧ (inDispatch .closed .connect 0).cfg.reopenAllowed = false) ∧
      ((inOpenWait [true]).cmdOp = .connect ∧ (inOpenWait [true]).phase = .openWait ∧
        (inOpenWait [true]).openReplies = true :: []) ∧
      (inOpenWait [false]).openReplies = false :: [] ∧
      ∃ t, BlockInv (inOpenWait [false]) ∧ exec (.connect 0) (inOpenWait [false]) = .next t ∧ t.phase = .idle :=
  ⟨by decide, by decide, by decide, by decide, by decide, by decide, by decide, by decide, _, by decide, rfl, by decide⟩

theorem witness_CloseRequest :
    (inDispatch .opened .close 0).cmdOp = .close ∧ (inDispatch .opened .close 0).phase = .dispatch ∧
      (inDispatch .opened .close 0).conn = .opened ∧ (inDispatch .closed .close 0).conn = .closed ∧
      (inDispatch .unopened .close 0).conn = .unopened ∧ BlockInv (inDispatch .unopened .close 0) := by decide

theorem witness_ReservedRequest :
    (inDispatch .unopened .reserved7 0).phase = .dispatch ∧ BlockInv (inDispatch .unopened .reserved7 0) := by decide

theorem witness_SensorCommandSendsItsFrame :
    (inDispatch .opened .spanCal 65535).phase = .dispatch ∧ (inDispatch .opened .spanCal 65535).conn = .opened ∧
      65535 < 2 ^ (inDispatch .opened .spanCal 65535).cfg.argW ∧
      65535 = (0xFF : Byte).toNat * 256 + (0xFF : Byte).toNat ∧ 1 % 2 = 1 ∧ 0xFFFFFFFE % 2 = 0 ∧
      0xFFFFFFFE < 2 ^ (inDispatch .opened .setAbc 0xFFFFFFFE).cfg.argW ∧
      (10000 : BitVec 16) ∈ (inDispatch .opened .setRange 10000).cfg.rangeSet ∧ (10000 : BitVec 16).toNat = 10000 ∧
      10000 = (0x27 : Byte).toNat * 256 + (0x10 : Byte).toNat := by decide

/-- The first illegal argument of `SPAN_CAL`, on a closed connection. -/
def spanTooLarge : State := inDispatch .closed .spanCal 65536

/-- The first illegal value and the last legal one of `SPAN_CAL`, a range next to a member and a member, and the least
legal `ARG_W`. -/
theorem witness_SensorCommandTurnedAway :
    isSensor .spanCal = true ∧ spanTooLarge.phase = .dispatch ∧
      65536 < 2 ^ spanTooLarge.cfg.argW ∧
      (∀ r ∈ (inDispatch .opened .setRange 999).cfg.rangeSet, r.toNat ≠ 999) ∧
      (∃ r ∈ (inDispatch .closed .setRange 1000).cfg.rangeSet, r.toNat = 1000) ∧
      (inDispatch .closed .setRange 1000).conn ≠ .opened ∧ ({ Config.standard with argW := 17 } : Config).Legal := by
  refine ⟨rfl, rfl, ?_, ?_, ⟨1000, by decide, by simp⟩, by decide, by decide⟩ <;>
    simp [spanTooLarge, inDispatch, State.reset, Config.standard]

theorem witness_UnusedArgumentBitsIgnored :
    (inDispatch .opened .setAbc 1).phase = .dispatch ∧ 1 % 2 = 0xFFFFFFFF % 2 := by decide

theorem witness_WriteDoneStep :
    (inWriteWait [.error 15]).phase = .writeWait ∧ (inWriteWait [.error 15]).writeReplies = .error 15 :: [] ∧
      ((inWriteWait [.count 8]).writeReplies = .count 8 :: [] ∧ (8 : Fin 10).val < 9) ∧
      ((inWriteWait [.count 9]).writeReplies = .count 9 :: [] ∧ (9 : Fin 10).val = 9) := by decide

theorem witness_ReadDoneStep :
    (inReadWait 2 [.timeout 0 zeroFrame]).phase = .readWait ∧
      ((inReadWait 2 [.timeout 0 zeroFrame]).readReplies = .timeout 0 zeroFrame :: [] ∧ (2 : BitVec 2).toNat < 3) ∧
      ((inReadWait 3 [.timeout 0 zeroFrame]).readReplies = .timeout 0 zeroFrame :: [] ∧
        (inReadWait 3 [.timeout 0 zeroFrame]).attempt.toNat = 3) ∧
      (inReadWait 1 [.error 9 replyFrame]).readReplies = .error 9 replyFrame :: [] ∧
      ((inReadWait 1 [.data 8 replyFrame]).readReplies = .data 8 replyFrame :: [] ∧ (8 : Fin 10).val < 9) ∧
      ((inReadWait 1 [.data 9 replyFrame]).readReplies = .data 9 replyFrame :: [] ∧ (9 : Fin 10).val = 9) := by decide

theorem witness_ParseStep :
    isSensor (inParse .setAbc replyFrame).cmdOp = true ∧ (inParse .setAbc replyFrame).phase = .parse ∧
      (inParse .setAbc replyFrame).rxlen = 9 ∧ (inParse .setAbc zeroFrame).rxbuf.b0 ≠ 0xFF ∧
      (readFrame.b0 = 0xFF ∧ checksum ({ readFrame with b8 := 0 } : Frame).toBody ≠ 0) ∧
      ((inParse .setAbc replyFrame).rxbuf.b0 = 0xFF ∧
        checksum (inParse .setAbc replyFrame).rxbuf.toBody = (inParse .setAbc replyFrame).rxbuf.b8) := by decide

theorem witness_CompleteWritesResults :
    (Status.readFailed ≠ .ok ∧ isSensor (inDispatch .opened .close 0).cmdOp = false) ∧
      isSensor (inDispatch .opened .readCo2 0).cmdOp = true := by decide

theorem witness_CommandFrameIsHandedOver :
    (inDispatch .opened .setRange 1000).phase = .dispatch ∧ (inDispatch .opened .setRange 1000).conn = .opened ∧
      (0x03 : Byte) ++ (0xE8 : Byte) ∈ (inDispatch .opened .setRange 1000).cfg.rangeSet ∧
      ((inDispatch .closed .setRange 1000).conn ≠ .opened ∧ 1000 ∈ (inDispatch .closed .setRange 1000).cfg.rangeSet) ∧
      (inDispatch .unopened .readCo2 0).conn ≠ .opened ∧
      4000 ∉ (inDispatch .opened .setRange 4000).cfg.rangeSet := by decide

theorem witness_CommandFrameInFlight :
    encode (inWriteWait [.count 9]).cfg.argW (.frameReadCo2 0x79) = .cmd9 readFrame ∧ (inWriteWait [.count 9]).phase = .writeWait := by decide

theorem witness_RequestRunsTheFrameItBuilds :
    isSensor .readCo2 = true ∧ (inDispatch .opened .readCo2 0).phase = .dispatch ∧
      buildRequest (inDispatch .opened .readCo2 0).cfg .readCo2 0 = some readFrame ∧
      (inDispatch .closed .readCo2 0).conn ≠ .opened ∧
      buildRequest (inDispatch .opened .spanCal 65536).cfg .spanCal 65536 = none := by decide

theorem witness_ReplyFrameIsTakenAndJudged :
    (inReadWait 1 [.data 9 replyFrame]).phase = .readWait ∧
      replyFrame = bytes9 0xFF 0x86 0x01 0x9F 0x00 0x00 0x00 0x00 0xDA ∧ (inParse .readCo2 replyFrame).phase = .parse ∧
      checksum (bytes9 0xFF 0x86 0x01 0x9F 0x00 0x00 0x00 0x00 0xBD).toBody ≠ 0xBD ∧
      checksum replyFrame.toBody = 0xDA ∧ isSensor (inParse .readCo2 replyFrame).cmdOp = true := by decide

theorem witness_FrameOutOfPlaceDoesNothing :
    (encode 32 (.frameReadCo2 0x79) = .cmd9 readFrame ∧ State.reset.phase ≠ .dispatch ∧ State.reset.phase ≠ .writeWait) ∧
      (encode 32 (.frameResponse 0x86 415 0 0xDA) = .rsp9 replyFrame ∧ State.reset.phase ≠ .readWait ∧
        State.reset.phase ≠ .parse) := by decide

theorem witness_SensorCommandKeepsConn :
    BlockInv (inReadWait 3 [.timeout 0 zeroFrame]) ∧ (inReadWait 3 [.timeout 0 zeroFrame]).rst = false ∧
      (inReadWait 3 [.timeout 0 zeroFrame]).phase ≠ .idle ∧
      isSensor (inReadWait 3 [.timeout 0 zeroFrame]).cmdOp = true ∧
      ∃ t, step (inReadWait 3 [.timeout 0 zeroFrame]) = .next t :=
  ⟨by decide, by decide, by decide, by decide, _, rfl⟩

/-- Both sides of the equivalence hold of a close, and neither of a close that finds nothing open. -/
theorem witness_CloseCallIsTheClosing :
    (∃ t, step (inDispatch .opened .close 0) = .next t ∧ t.calls = [.tClose] ∧ t.conn = .closed) ∧
      ∃ t, step (inDispatch .closed .close 0) = .next t ∧ t.calls = [] := ⟨⟨_, rfl, rfl, rfl⟩, _, rfl, rfl⟩

theorem witness_OneCallAndItsPhase :
    (∃ t, step (inDispatch .unopened .connect 0) = .next t ∧ t.calls = [.tOpen]) ∧
      (∃ t, step (inDispatch .opened .readCo2 0) = .next t ∧ t.calls = [.tWrite readFrame]) ∧
      (∃ t, step (inWriteWait [.count 9]) = .next t ∧ t.calls = [.tRead]) ∧
      ∃ t, step (inDispatch .opened .close 0) = .next t ∧ t.calls = [.tClose] :=
  ⟨⟨_, rfl, rfl⟩, ⟨_, rfl, by decide⟩, ⟨_, rfl, rfl⟩, _, rfl, rfl⟩

theorem witness_ReturnToIdleIsOneCompletion :
    (∃ t, (inDispatch .opened .close 0).rst = false ∧ step (inDispatch .opened .close 0) = .next t ∧ t.phase = .idle) ∧
      ∃ t, State.reset.rst = false ∧ step State.reset = .next t ∧ t.phase = .idle :=
  ⟨⟨_, rfl, rfl, rfl⟩, _, rfl, rfl, rfl⟩

theorem witness_ErrorCompletionLeavesTheRest :
    ∃ t, (inReadWait 3 [.timeout 0 zeroFrame]).rst = false ∧ (inReadWait 3 [.timeout 0 zeroFrame]).phase ≠ .idle ∧
      step (inReadWait 3 [.timeout 0 zeroFrame]) = .next t ∧ t.phase = .idle ∧ t.resStatus ≠ .ok :=
  ⟨_, rfl, by decide, rfl, by decide, by decide⟩

theorem witness_BufferWriters :
    (∃ t, step (inDispatch .opened .readCo2 0) = .next t ∧ t.txbuf ≠ (inDispatch .opened .readCo2 0).txbuf) ∧
      ∃ t, step (inReadWait 1 [.data 9 replyFrame]) = .next t ∧
        t.rxbuf ≠ (inReadWait 1 [.data 9 replyFrame]).rxbuf := ⟨⟨_, rfl, by decide⟩, _, rfl, by decide⟩

/-- Three timeouts that carry different unused fields. -/
def timeouts : List ReadReply := [.timeout 0 zeroFrame, .timeout 15 replyFrame, .timeout 9 readFrame]

theorem witness_ThreeTimeoutsEndInReadFailed :
    (inReadWait 1 timeouts).rst = false ∧ (inReadWait 1 timeouts).phase = .readWait ∧ (inReadWait 1 timeouts).attempt = 1 ∧
      (inReadWait 1 timeouts).readReplies =
        .timeout 0 zeroFrame :: .timeout 15 replyFrame :: .timeout 9 readFrame :: [] := by decide

/-- V5 row 1, as an idle block with its request and its replies waiting. -/
def readingCo2 : State :=
  { idleWith .opened [requestWord 32 .readCo2 0] with writeReplies := [.count 9], readReplies := [.data 9 replyFrame] }

/-- V5 row 1 and V16 row 1. -/
theorem witness_RequestRunsToItsResult :
    (readingCo2.rst = false ∧ readingCo2.phase = .idle ∧ readingCo2.requests = requestWord 32 .readCo2 0 :: [] ∧
      resultOf readingCo2.cfg readingCo2.conn .readCo2 0 readingCo2.openReplies readingCo2.writeReplies
        readingCo2.readReplies =
        some ⟨.opened, .ok, 1, some ⟨0x86, 415, 0, 0xDA⟩, [.tWrite readFrame, .tRead]⟩) ∧
    resultOf Config.standard .unopened .connect 0 [true] [] [] = some ⟨.opened, .ok, 0, none, [.tOpen]⟩ := by decide

theorem witness_UnansweredRequestNeverCompletes :
    (idleWith .opened [requestWord 32 .readCo2 0]).rst = false ∧ (idleWith .opened [requestWord 32 .readCo2 0]).phase = .idle ∧
      resultOf Config.standard .opened .readCo2 0 [] [] [] = none ∧
      resultOf Config.standard .opened .readCo2 0 [] [.count 9] [.timeout 0 zeroFrame] = none ∧
      resultOf Config.standard .unopened .connect 0 [] [] [] = none := by decide

/-- A refused request in the body, then the close. -/
def scopedRun : State := idleWith .opened ([requestWord 32 .setRange 4000] ++ [requestWord 32 .close 0])

theorem witness_ScopedFormClosesExactlyOnce :
    scopedRun.rst = false ∧ scopedRun.phase = .idle ∧ scopedRun.conn = .opened ∧
      (∀ w ∈ [requestWord 32 .setRange 4000], wordOp 32 w ≠ .close) ∧
      ∃ t, Host.Core.run Sys2Proof.core 4 scopedRun = .next t ∧ RunOver t :=
  ⟨rfl, rfl, rfl, fun w h => by rw [List.mem_singleton.mp h]; decide, _, rfl, by decide⟩

/-- The step lemma at the step that opens, at the step that closes, and at the accept. -/
theorem witness_ClosesNeverOutnumberOpens :
    Reachable Config.standard asked ∧
      (BlockInv (inDispatch .unopened .connect 0) ∧ CallsBalance (inDispatch .unopened .connect 0) ∧
        ∃ t, step (inDispatch .unopened .connect 0) = .next t ∧ t.calls = [.tOpen]) ∧
      (BlockInv { inDispatch .opened .close 0 with calls := [.tOpen] } ∧
        CallsBalance { inDispatch .opened .close 0 with calls := [.tOpen] } ∧
        ∃ t, step { inDispatch .opened .close 0 with calls := [.tOpen] } = .next t ∧ t.calls = [.tOpen, .tClose]) :=
  ⟨.request _ .reset, ⟨by decide, by decide, _, rfl, by decide⟩, by decide, by decide, _, rfl, by decide⟩

/-- The step lemma at a step that hands a frame over; and a reachable state: after `CONNECT`, answered by the transport,
and `READ_CO2`, the frame has gone out. -/
theorem witness_WireCarriesOnlyCommandFrames :
    (WireClean (inDispatch .opened .readCo2 0) ∧
      ∃ t, step (inDispatch .opened .readCo2 0) = .next t ∧ t.calls = [.tWrite readFrame]) ∧
      ∃ s, Reachable Config.standard s ∧ Call.tWrite readFrame ∈ s.calls :=
  have opened := ((((Reachable.reset (cfg := Config.standard)).request (requestWord 32 .connect 0)).step rfl).step
    rfl).answerOpen true |>.step rfl
  ⟨⟨fun f h => absurd h List.not_mem_nil, _, rfl, by decide⟩,
    _, ((opened.request (requestWord 32 .readCo2 0)).step rfl).step rfl, by decide⟩

theorem witness_HistoryDoesNotMatter :
    ∃ t u, scopedRun.rst = false ∧ scopedRun.phase = .idle ∧ scopedRun.txbuf ≠ ({ scopedRun with txbuf := readFrame } : State).txbuf ∧
      Host.Core.run Sys2Proof.core 2 scopedRun = .next t ∧
      Host.Core.run Sys2Proof.core 2 { scopedRun with txbuf := readFrame } = .next u :=
  ⟨_, _, rfl, rfl, by decide, rfl, rfl⟩

/-- Before any completion (`RES_VALID` = 0), after one without a Response, and after one with. -/
theorem witness_HostReadsOnlyHeldValues :
    (State.reset.resValid = false ∧ State.reset.resRspValid = false) ∧
      ((endedWithout .readFailed State.reset).resValid = true ∧
        (endedWithout .readFailed State.reset).resRspValid = false) ∧
      ((endedWith true ⟨0x86, 415, 0, 0xDA⟩ State.reset).resValid = true ∧
        (endedWith true ⟨0x86, 415, 0, 0xDA⟩ State.reset).resRspValid = true) := by decide

/-- Each channel: outstanding and empty, with the largest count and length; not outstanding; outstanding and already
answered. -/
theorem witness_LateReplyDropped :
    ((inOpenWait []).phase = .openWait ∧ (inOpenWait []).openReplies = []) ∧
      ((inWriteWait []).phase = .writeWait ∧ (inWriteWait []).writeReplies = [] ∧ (9 : BitVec 4).toNat = (9 : Fin 10).val) ∧
      ((inReadWait 1 []).phase = .readWait ∧ (inReadWait 1 []).readReplies = []) ∧
      (State.reset.phase ≠ .openWait ∧ (inOpenWait [true]).openReplies ≠ []) ∧
      (State.reset.phase ≠ .writeWait ∧ answerWrite 0 9 State.reset = .next State.reset ∧
        (inWriteWait [.count 9]).writeReplies ≠ [] ∧ ∃ t, answerWrite 1 15 (inWriteWait [.count 9]) = .next t) ∧
      (State.reset.phase ≠ .readWait ∧ answerRead 1 0 zeroFrame State.reset = .next State.reset ∧
        (inReadWait 1 [.data 9 replyFrame]).readReplies ≠ [] ∧
        ∃ t, answerRead 0 9 replyFrame (inReadWait 1 [.data 9 replyFrame]) = .next t) :=
  ⟨by decide, by decide, by decide, by decide, ⟨by decide, rfl, by decide, _, rfl⟩, by decide, rfl, by decide, _, rfl⟩

end Sys2Proof.Tests
end

section
/-! SUPPORT and PROOF. The bytes of a frame in its 72-bit value (00_scope.md R6): obligation O14. -/

namespace Sys2Proof

/-- What stands above the last byte of a value is found 8 bits lower once that byte is dropped. -/
theorem extract_append_byte {n k w : Nat} (x : BitVec n) (y : Byte) :
    (x ++ y).extractLsb' (k + 8) w = x.extractLsb' k w :=
  extract_append_of_ge x y (Nat.le_add_left 8 k)

/-- The bytes below byte `i` are dropped one by one until byte `i` is the last. -/
@[simp] theorem frameOfBits_frameBits (f : Frame) : frameOfBits (frameBits f) = f := by
  simp only [frameOfBits, frameBits, extract_append_byte, extract_append_low, BitVec.extractLsb'_eq_self]

/-- Neighbouring slices join to one, and the nine together are the slice of all 72 bits. -/
@[simp] theorem frameBits_frameOfBits (w : BitVec 72) : frameBits (frameOfBits w) = w := by
  simp only [frameBits, frameOfBits, BitVec.extractLsb'_append_extractLsb'_eq_extractLsb', BitVec.extractLsb'_eq_self]

/-- Settles O14: `frameOfBits` reads byte `i` at bit `64-8*i`, so the fields of its round trip are the nine placements. -/
theorem frameBitsRoundTrip : Obligations.FrameBitsRoundTrip := by
  refine ⟨fun f => ?placements, frameOfBits_frameBits, frameBits_frameOfBits⟩
  case placements =>
    have h := frameOfBits_frameBits f
    exact ⟨congrArg (·.b0) h, congrArg (·.b1) h, congrArg (·.b2) h, congrArg (·.b3) h, congrArg (·.b4) h,
      congrArg (·.b5) h, congrArg (·.b6) h, congrArg (·.b7) h, congrArg (·.b8) h⟩

end Sys2Proof
end

section
/-! SUPPORT. What the invariants of 10_state.md R24 amount to in each phase (R12), and what each operation of the block
needs in order to establish them. -/

namespace Sys2Proof.Machine

/-! ### The invariants, phase by phase -/

/-- Result registers that are not valid are under no constraint (10_state.md R24 (h)). -/
theorem resultFits_of_not_valid {s : State} (hv : s.resValid = false) : ResultFits s := by simp [ResultFits, hv]

theorem blockInv_idle_iff {s : State} (hp : s.phase = .idle) : BlockInv s ↔ ResultFits s ∧ ArgumentFits s := by
  simp [BlockInv, AttemptFits, hp]

/-- Outside `IDLE` the result registers are not valid (10_state.md R24 (g)), so nothing of R24 (h) is left to say. -/
theorem blockInv_busy_iff {s : State} (hp : s.phase ≠ .idle) :
    BlockInv s ↔ AttemptFits s ∧ ((s.phase = .writeWait ∨ s.phase = .readWait ∨ s.phase = .parse) → FrameInFlight s) ∧
      (s.phase = .parse → s.rxlen = 9) ∧ (s.phase = .openWait → s.cmdOp = .connect ∧ MayReopen s) ∧
      s.resValid = false ∧ ArgumentFits s := by
  constructor
  · rintro ⟨hattempt, hframe, hlen, hopen, hvalid, -, harg⟩
    exact ⟨hattempt, hframe, hlen, hopen, Bool.eq_false_iff.mpr fun hv => hp (hvalid hv), harg⟩
  · rintro ⟨hattempt, hframe, hlen, hopen, hvalid, harg⟩
    exact ⟨hattempt, hframe, hlen, hopen, fun hv => absurd hv (by simp [hvalid]), resultFits_of_not_valid hvalid, harg⟩

theorem blockInv_dispatch_iff {s : State} (hp : s.phase = .dispatch) :
    BlockInv s ↔ s.attempt = 0 ∧ s.resValid = false ∧ ArgumentFits s := by
  rw [blockInv_busy_iff (by simp [hp])]
  simp [AttemptFits, hp]

theorem blockInv_openWait_iff {s : State} (hp : s.phase = .openWait) :
    BlockInv s ↔ s.attempt = 0 ∧ (s.cmdOp = .connect ∧ MayReopen s) ∧ s.resValid = false ∧ ArgumentFits s := by
  rw [blockInv_busy_iff (by simp [hp])]
  simp [AttemptFits, hp]

theorem blockInv_writeWait_iff {s : State} (hp : s.phase = .writeWait) :
    BlockInv s ↔ s.attempt = 0 ∧ FrameInFlight s ∧ s.resValid = false ∧ ArgumentFits s := by
  rw [blockInv_busy_iff (by simp [hp])]
  simp [AttemptFits, hp]

theorem blockInv_readWait_iff {s : State} (hp : s.phase = .readWait) :
    BlockInv s ↔ s.attempt ≠ 0 ∧ FrameInFlight s ∧ s.resValid = false ∧ ArgumentFits s := by
  rw [blockInv_busy_iff (by simp [hp])]
  simp [AttemptFits, hp]

theorem blockInv_parse_iff {s : State} (hp : s.phase = .parse) :
    BlockInv s ↔ s.attempt ≠ 0 ∧ FrameInFlight s ∧ s.rxlen = 9 ∧ s.resValid = false ∧ ArgumentFits s := by
  rw [blockInv_busy_iff (by simp [hp])]
  simp [AttemptFits, hp]

/-- An argument that has been cut to the width in force fits it. -/
theorem toNat_argBits_lt (argW : Nat) (arg : Arg) : (argBits argW arg).toNat < 2 ^ argW := BitVec.isLt _

/-! ### The flags of a completion and the frames of the builder -/

theorem rspValidAfter_eq_true_iff (st : Status) (op : Op) :
    rspValidAfter st op = true ↔ st = .ok ∧ isSensor op = true := by simp [rspValidAfter]

theorem ppmValidAfter_eq_true_iff (st : Status) (op : Op) : ppmValidAfter st op = true ↔ st = .ok ∧ op = .readCo2 := by
  simp [ppmValidAfter]

/-- 10_state.md R24 (h) at a completion: `READ_CO2` is a sensor command, and both flags ask for the status `OK`. -/
theorem resultFits_complete (st : Status) (r : Option Response) (s : State) : ResultFits (complete st r s) := by
  intro _
  constructor
  · intro hppm
    obtain ⟨hst, hop⟩ := (ppmValidAfter_eq_true_iff st s.cmdOp).mp hppm
    exact (rspValidAfter_eq_true_iff st s.cmdOp).mpr ⟨hst, by rw [hop]; rfl⟩
  · intro hrsp
    exact ((rspValidAfter_eq_true_iff st s.cmdOp).mp hrsp).1

/-- What the builder builds (40_frame_codec.md R82): the sealed body of the operation's wire opcode and data bytes,
where the operation has an opcode and its argument passes the check of R88. -/
theorem build_eq_some_iff {n : Nat} (cfg : Config) (op : Op) (arg : BitVec n) (f : Frame) :
    build cfg op arg = some f ↔
      ∃ opcode, wireOpcode op = some opcode ∧ argOk cfg op arg = true ∧
        f = sealBody (commandBody opcode (dataBytes op arg).1 (dataBytes op arg).2) := by
  unfold build
  cases wireOpcode op with
  | none => simp
  | some opcode => simp [eq_comm (a := f)]

/-- A frame built is a sealed command frame: header, address and its own checksum (10_state.md R24 (d)). -/
theorem build_sealed {n : Nat} {cfg : Config} {op : Op} {arg : BitVec n} {f : Frame} (h : build cfg op arg = some f) :
    f.b0 = 0xFF ∧ f.b1 = 0x01 ∧ f.b8 = checksum f.toBody := by
  obtain ⟨opcode, -, -, rfl⟩ := (build_eq_some_iff cfg op arg f).mp h
  exact ⟨rfl, rfl, rfl⟩

/-! ### Each operation establishes the invariants of the phase it goes to -/

theorem blockInv_takeReset (s : State) : BlockInv (takeReset s) :=
  (blockInv_idle_iff (takeReset_phase s)).mpr ⟨resultFits_of_not_valid rfl, toNat_argBits_lt _ _⟩

theorem blockInv_complete (st : Status) (r : Option Response) {s : State} (harg : ArgumentFits s) :
    BlockInv (complete st r s) :=
  (blockInv_idle_iff (complete_phase st r s)).mpr ⟨resultFits_complete st r s, harg⟩

theorem blockInv_accept (op : Op) (arg : Arg) (s : State) : BlockInv (accept op arg s) :=
  (blockInv_dispatch_iff (accept_phase op arg s)).mpr ⟨rfl, rfl, toNat_argBits_lt _ _⟩

theorem blockInv_startOpen {s : State} (hs : BlockInv s) (hp : s.phase = .dispatch) (hop : s.cmdOp = .connect)
    (hm : MayReopen s) : BlockInv (startOpen s) := by
  obtain ⟨hattempt, hvalid, harg⟩ := (blockInv_dispatch_iff hp).mp hs
  exact (blockInv_openWait_iff (startOpen_phase s)).mpr ⟨hattempt, ⟨hop, hm⟩, hvalid, harg⟩

theorem blockInv_transmit {f : Frame} {s : State} (hs : BlockInv s) (hp : s.phase = .dispatch)
    (hsensor : isSensor s.cmdOp = true) (hbuild : buildRequest s.cfg s.cmdOp s.cmdArg = some f)
    (hconn : s.conn = .opened) : BlockInv (transmit f s) := by
  obtain ⟨hattempt, hvalid, harg⟩ := (blockInv_dispatch_iff hp).mp hs
  have hframe : FrameInFlight (transmit f s) := ⟨hconn, hsensor, build_sealed hbuild⟩
  exact (blockInv_writeWait_iff (transmit_phase f s)).mpr ⟨hattempt, hframe, hvalid, harg⟩

theorem blockInv_startRead {a : BitVec 2} {s : State} (ha : a ≠ 0) (hframe : FrameInFlight s)
    (hvalid : s.resValid = false) (harg : ArgumentFits s) : BlockInv (startRead a s) :=
  (blockInv_readWait_iff (startRead_phase a s)).mpr ⟨ha, hframe, hvalid, harg⟩

theorem blockInv_storeReply (f : Frame) {s : State} (hs : BlockInv s) (hp : s.phase = .readWait) :
    BlockInv (storeReply f s) := by
  obtain ⟨hattempt, hframe, hvalid, harg⟩ := (blockInv_readWait_iff hp).mp hs
  exact (blockInv_parse_iff (storeReply_phase f s)).mpr ⟨hattempt, hframe, rfl, hvalid, harg⟩

/-- The next attempt number is not 0: a read is retried only below the third attempt (41_transaction_engine.md R104). -/
theorem attempt_succ_ne_zero {a : BitVec 2} (h : a.toNat < 3) : a + 1 ≠ 0 := by bv_omega

end Sys2Proof.Machine
end

section
/-! PROOF. The obligations about the state (10_state.md): reset, the invariants of R24, the calls, the buffers and the
host's reads. -/

namespace Sys2Proof.Machine

/-- Settles O3, move by move: every move establishes the invariants of the phase it goes to. -/
theorem stepKeepsInvariants : Obligations.StepKeepsInvariants := by
  intro s t hs h
  have harg : ArgumentFits s := by
    obtain ⟨-, -, -, -, -, -, harg⟩ := hs
    exact harg
  cases step_moves h with
  | reset => exact blockInv_takeReset s
  | waitIdle | waitStuck => exact hs
  | accept w rest => exact blockInv_accept _ _ s
  | startOpen hr hp hop hm => exact blockInv_startOpen hs hp hop hm
  | transmit f hr hp hsensor hbuild hconn => exact blockInv_transmit hs hp hsensor hbuild hconn
  | written n rest hr hp hq hn =>
    obtain ⟨-, hframe, hvalid, -⟩ := (blockInv_writeWait_iff hp).mp hs
    exact blockInv_startRead (by decide) hframe hvalid harg
  | retry n f rest hr hp hq ha =>
    obtain ⟨-, hframe, hvalid, -⟩ := (blockInv_readWait_iff hp).mp hs
    exact blockInv_startRead (attempt_succ_ne_zero ha) hframe hvalid harg
  | received f rest hr hp hq => exact blockInv_storeReply f (s := { s with readReplies := rest }) hs hp
  | connected | connectRefused | close | closedAlready | reserved | badArgument | notConnected | opened | openFailed
  | writeError | writeShort | readFailed | readError | readShort | parsed | parseFailed =>
    exact blockInv_complete _ _ harg

/-- Settles O2: a reset block is idle, its result registers are not valid, and `CMD_ARG` is 0. -/
theorem resetMeetsInvariants : Obligations.ResetMeetsInvariants := fun cfg =>
  (blockInv_idle_iff rfl).mpr ⟨resultFits_of_not_valid rfl, Nat.two_pow_pos cfg.argW⟩

/-- Settles O4 from O2 and O3: what arrives at the ports between steps touches no register and no parameter. -/
theorem reachableStatesMeetInvariants : Obligations.ReachableStatesMeetInvariants := by
  intro cfg s h
  refine reachable_keeps (P := fun s => BlockInv s ∧ s.cfg = cfg) ?start ?ofStep (fun _ _ => id) (fun _ => id)
    (fun _ _ => id) (fun _ _ => id) (fun _ _ => id) h
  case start => exact ⟨resetMeetsInvariants cfg, rfl⟩
  case ofStep =>
    rintro s t - ⟨hs, hcfg⟩ h
    exact ⟨stepKeepsInvariants s t hs h, (step_cfg h).trans hcfg⟩

/-- Settles O47: five moves issue a call, and no other move touches the list of calls. -/
theorem oneCallAndItsPhase : Obligations.OneCallAndItsPhase := by
  intro s t h
  cases step_moves h with
  | startOpen hr hp => exact .inr (.inl ⟨rfl, hp, rfl⟩)
  | transmit f hr hp => exact .inr (.inr (.inl ⟨rfl, hp, rfl⟩))
  | written n rest hr hp => exact .inr (.inr (.inr (.inl ⟨rfl, .inl hp, rfl⟩)))
  | retry n f rest hr hp => exact .inr (.inr (.inr (.inl ⟨rfl, .inr hp, rfl⟩)))
  | close hr hp => exact .inr (.inr (.inr (.inr ⟨rfl, hp, rfl⟩)))
  | _ => exact .inl rfl

/-- With `RST` low, the move that sends a frame is the only one that writes `TXBUF` (10_state.md R15). -/
theorem step_txbuf {s t : State} (hr : s.rst = false) (h : step s = .next t) :
    t.txbuf = s.txbuf ∨ (s.phase = .dispatch ∧ buildRequest s.cfg s.cmdOp s.cmdArg = some t.txbuf) := by
  cases step_moves h with
  | reset hrst => simp [hr] at hrst
  | transmit f _ hp _ hbuild => exact .inr ⟨hp, hbuild⟩
  | _ => exact .inl rfl

/-- With `RST` low, the move that stores a reply is the only one that writes `RXBUF` (10_state.md R16). -/
theorem step_rxbuf {s t : State} (hr : s.rst = false) (h : step s = .next t) :
    t.rxbuf = s.rxbuf ∨ (s.phase = .readWait ∧ ∃ rest, s.readReplies = .data 9 t.rxbuf :: rest) := by
  cases step_moves h with
  | reset hrst => simp [hr] at hrst
  | received f rest _ hp hq => exact .inr ⟨hp, rest, hq⟩
  | _ => exact .inl rfl

/-- Settles O50: each buffer has one writer. -/
theorem bufferWriters : Obligations.BufferWriters := fun _ _ hr h =>
  ⟨(step_txbuf hr h).resolve_left, (step_rxbuf hr h).resolve_left⟩

/-- Settles O1, by the values `State.reset` writes out. -/
theorem resetLeavesStatedValues : Obligations.ResetLeavesStatedValues :=
  ⟨rfl, rfl, rfl, rfl, rfl, rfl, rfl, by decide⟩

/-- Settles O58, from what a Response register reads as without and with `RES_RSP_VALID`. -/
theorem hostReadsOnlyHeldValues : Obligations.HostReadsOnlyHeldValues := by
  intro s
  refine ⟨⟨rfl, rfl, rfl, rfl, rfl⟩, ?absent, ?held⟩
  case absent =>
    rintro hv r (rfl | rfl | rfl | rfl) <;> exact readResponse_absent hv _
  case held =>
    intro hv
    exact ⟨readResponse_held hv _, readResponse_held hv _, readResponse_held hv _, readResponse_held hv _⟩

end Sys2Proof.Machine
end

section
/-! SUPPORT. The reply ports of the transport (20_memory.md R44 to R46): which codes stand for a reply, and what becomes
of a reply that has come. -/

namespace Sys2Proof.Machine

/-! ### The reply codes (30_encoding.md R69) -/

theorem writeReplyOfCode_error (count : BitVec 4) : writeReplyOfCode 1 count = some (.error count) := rfl

theorem writeReplyOfCode_count {count : BitVec 4} {n : Fin 10} (h : count.toNat = n.val) :
    writeReplyOfCode 0 count = some (.count n) := by
  simp [writeReplyOfCode, h]

theorem writeReplyOfCode_eq_none_iff (kind : BitVec 1) (count : BitVec 4) :
    writeReplyOfCode kind count = none ↔ kind = 0 ∧ 9 < count.toNat := by
  obtain rfl | rfl : kind = 0 ∨ kind = 1 := by bv_omega
  case inl =>
    by_cases h : count.toNat < 10
    · simp [writeReplyOfCode, h, Nat.le_of_lt_succ h]
    · simp [writeReplyOfCode, h, Nat.lt_of_succ_le (Nat.not_lt.mp h)]
  case inr => simp [writeReplyOfCode]

theorem readReplyOfCode_timeout (len : BitVec 4) (f : Frame) :
    readReplyOfCode 1 len f = some (.timeout len f) := rfl

theorem readReplyOfCode_error (len : BitVec 4) (f : Frame) :
    readReplyOfCode 2 len f = some (.error len f) := rfl

theorem readReplyOfCode_data {len : BitVec 4} {n : Fin 10} (f : Frame) (h : len.toNat = n.val) :
    readReplyOfCode 0 len f = some (.data n f) := by
  simp [readReplyOfCode, h]

theorem readReplyOfCode_eq_none_iff (kind : BitVec 2) (len : BitVec 4) (f : Frame) :
    readReplyOfCode kind len f = none ↔ kind = 3 ∨ (kind = 0 ∧ 9 < len.toNat) := by
  obtain rfl | rfl | rfl | rfl : kind = 0 ∨ kind = 1 ∨ kind = 2 ∨ kind = 3 := by bv_omega
  case inl =>
    by_cases h : len.toNat < 10
    · simp [readReplyOfCode, h, Nat.le_of_lt_succ h]
    · simp [readReplyOfCode, h, Nat.lt_of_succ_le (Nat.not_lt.mp h)]
  case inr.inl | inr.inr.inl | inr.inr.inr => simp [readReplyOfCode]

/-! ### What becomes of a reply -/

theorem answerOpen_outstanding (ready : Bool) {s : State} (hp : s.phase = .openWait) (hq : s.openReplies = []) :
    answerOpen ready s = { s with openReplies := [ready] } :=
  if_pos ⟨hp, hq⟩

theorem answerOpen_dropped (ready : Bool) {s : State} (h : s.phase ≠ .openWait ∨ s.openReplies ≠ []) :
    answerOpen ready s = s :=
  if_neg (not_and_or.mpr h)

theorem answerWrite_refused_iff (kind : BitVec 1) (count : BitVec 4) (s : State) :
    answerWrite kind count s = .refused .reservedWriteReply ↔ writeReplyOfCode kind count = none := by
  cases h : writeReplyOfCode kind count <;> simp [answerWrite, h]

theorem answerWrite_outstanding {kind : BitVec 1} {count : BitVec 4} {r : WriteReply} {s : State}
    (hr : writeReplyOfCode kind count = some r) (hp : s.phase = .writeWait) (hq : s.writeReplies = []) :
    answerWrite kind count s = .next { s with writeReplies := [r] } := by
  simp [answerWrite, hr, hp, hq]

theorem answerWrite_dropped {kind : BitVec 1} {count : BitVec 4} {s t : State}
    (hd : s.phase ≠ .writeWait ∨ s.writeReplies ≠ []) (h : answerWrite kind count s = .next t) : t = s := by
  cases hr : writeReplyOfCode kind count with
  | none => simp [answerWrite, hr] at h
  | some r =>
    simp only [answerWrite, hr, if_neg (not_and_or.mpr hd)] at h
    injection h with h
    exact h.symm

theorem answerRead_refused_iff (kind : BitVec 2) (len : BitVec 4) (f : Frame) (s : State) :
    answerRead kind len f s = .refused .reservedReadReply ↔ readReplyOfCode kind len f = none := by
  cases h : readReplyOfCode kind len f <;> simp [answerRead, h]

theorem answerRead_outstanding {kind : BitVec 2} {len : BitVec 4} {f : Frame} {r : ReadReply} {s : State}
    (hr : readReplyOfCode kind len f = some r) (hp : s.phase = .readWait) (hq : s.readReplies = []) :
    answerRead kind len f s = .next { s with readReplies := [r] } := by
  simp [answerRead, hr, hp, hq]

theorem answerRead_dropped {kind : BitVec 2} {len : BitVec 4} {f : Frame} {s t : State}
    (hd : s.phase ≠ .readWait ∨ s.readReplies ≠ []) (h : answerRead kind len f s = .next t) : t = s := by
  cases hr : readReplyOfCode kind len f with
  | none => simp [answerRead, hr] at h
  | some r =>
    simp only [answerRead, hr, if_neg (not_and_or.mpr hd)] at h
    injection h with h
    exact h.symm

end Sys2Proof.Machine
end

section
/-! SUPPORT. The balance of the calls that open and close the transport (20_memory.md R47). -/

namespace Sys2Proof.Machine

@[simp] theorem closeCount_concat (cs : List Call) (c : Call) :
    closeCount (cs ++ [c]) = closeCount cs + if c = .tClose then 1 else 0 := by
  simp [closeCount, List.countP_append, List.countP_singleton]

@[simp] theorem openCount_concat (cs : List Call) (c : Call) :
    openCount (cs ++ [c]) = openCount cs + if c = .tOpen then 1 else 0 := by
  simp [openCount, List.countP_append, List.countP_singleton]

/-- The connection is open, or is being opened. -/
abbrev OpenOrOpening (s : State) : Prop := s.conn = .opened ∨ s.phase = .openWait

theorem openOrOpening_of_conn_eq {s t : State} (hc : t.conn = s.conn) (hp : t.phase ≠ .openWait)
    (ht : OpenOrOpening t) : OpenOrOpening s :=
  .inl (hc ▸ ht.resolve_right hp)

/-- What moves neither count and opens nothing keeps the balance. -/
theorem callsBalance_of_counts_eq {s t : State} (hs : CallsBalance s)
    (hclose : closeCount t.calls = closeCount s.calls) (hopen : openCount t.calls = openCount s.calls)
    (hkeep : OpenOrOpening t → OpenOrOpening s) : CallsBalance t := by
  unfold CallsBalance at *
  rw [hclose, hopen]
  by_cases ht : OpenOrOpening t
  · rw [if_pos ht]
    rwa [if_pos (hkeep ht)] at hs
  · rw [if_neg ht]
    exact (Nat.le_add_right _ _).trans hs

/-- Asking the transport to open pays for the opening that begins. -/
theorem callsBalance_startOpen {s : State} (hs : CallsBalance s) : CallsBalance (startOpen s) := by
  simp [CallsBalance] at *
  omega

/-- An open connection is owed one closing, and `CLOSE` takes it up (42_operations.md R126). -/
theorem callsBalance_close {s : State} (hs : CallsBalance s) (hc : s.conn = .opened) :
    CallsBalance (complete .ok none { s with conn := .closed, calls := s.calls ++ [.tClose] }) := by
  simpa [CallsBalance, hc] using hs

/-- Two moves add a call that counts, `startOpen` and `close`; of the others only `opened` makes the connection open,
and it was being opened. -/
theorem step_keeps_callsBalance {s t : State} (hs : CallsBalance s) (h : step s = .next t) : CallsBalance t := by
  cases step_moves h with
  | startOpen => exact callsBalance_startOpen hs
  | close hr hp hop hc => exact callsBalance_close hs hc
  | waitIdle | waitStuck => exact hs
  | opened rest hr hp => exact callsBalance_of_counts_eq hs rfl rfl fun _ => .inr hp
  | reset => exact callsBalance_of_counts_eq hs rfl rfl (by simp [OpenOrOpening])
  | transmit | written | retry =>
    exact callsBalance_of_counts_eq hs (by simp) (by simp) (openOrOpening_of_conn_eq rfl (by simp))
  | _ => exact callsBalance_of_counts_eq hs rfl rfl (openOrOpening_of_conn_eq rfl (by simp))

theorem callsBalance_of_reachable {cfg : Config} {s : State} (h : Reachable cfg s) : CallsBalance s :=
  reachable_keeps (P := CallsBalance) (Nat.le_refl 0) (fun _ _ _ hs h => step_keeps_callsBalance hs h) (fun _ _ => id)
    (fun _ => id) (fun _ _ => id) (fun _ _ => id) (fun _ _ => id) h

end Sys2Proof.Machine
end

section
/-! PROOF. The obligations about the ports of the transport (20_memory.md): opening and closing, reserved reply codes,
late replies. -/

namespace Sys2Proof.Machine

/-- Settles O55: the balance is kept by every step and by whatever arrives at the ports, and bounds the closings. -/
theorem closesNeverOutnumberOpens : Obligations.ClosesNeverOutnumberOpens :=
  ⟨fun _ _ _ hs h => step_keeps_callsBalance hs h,
    fun _ _ h => (Nat.le_add_right _ _).trans (callsBalance_of_reachable h)⟩

/-- Settles O59: a reply is refused where its codes stand for no reply. -/
theorem reservedRepliesRefused : Obligations.ReservedRepliesRefused := fun s len f =>
  ⟨fun kind => (answerWrite_refused_iff kind len s).trans (writeReplyOfCode_eq_none_iff kind len),
    fun kind => (answerRead_refused_iff kind len f s).trans (readReplyOfCode_eq_none_iff kind len f)⟩

/-- Settles O60, channel by channel: first the reply that is outstanding, then the one that is not. -/
theorem lateReplyDropped : Obligations.LateReplyDropped := by
  intro s t ready _ _ len f
  refine ⟨answerOpen_outstanding ready, ?write, ?read, answerOpen_dropped ready, answerWrite_dropped,
    answerRead_dropped⟩
  case write =>
    intro hp hq
    exact ⟨fun n hn => answerWrite_outstanding (writeReplyOfCode_count hn) hp hq,
      answerWrite_outstanding (writeReplyOfCode_error len) hp hq⟩
  case read =>
    intro hp hq
    exact ⟨fun n hn => answerRead_outstanding (readReplyOfCode_data f hn) hp hq,
      answerRead_outstanding (readReplyOfCode_timeout len f) hp hq,
      answerRead_outstanding (readReplyOfCode_error len f) hp hq⟩

end Sys2Proof.Machine
end

section
/-! SUPPORT. Each decoder is the inverse of the encoder (30_encoding.md R60 to R65): a decoder answers an instruction
exactly when the word is that instruction's encoding, and the same of the numbers of the opcode table. -/

namespace Sys2Proof

open Machine

/-! ### Request words (30_encoding.md R60, R61) -/

@[simp] theorem encode_requestInstr (argW : Nat) (op : Op) (arg : Arg) :
    encode argW (requestInstr op arg) = .req (requestWord argW op arg) := by
  cases op <;> rfl

@[simp] theorem argFits_requestInstr (argW : Nat) (op : Op) (arg : Arg) :
    argFits argW (requestInstr op arg) = decide (arg < 2 ^ argW) := by
  cases op <;> rfl

/-- A request that fits its port is read back from its word. -/
theorem decodeRequest_requestWord {argW : Nat} (op : Op) {arg : Arg} (h : arg < 2 ^ argW) :
    decodeRequest argW (requestWord argW op arg) = requestInstr op arg := by
  rw [decodeRequest, wordOp_requestWord, wordArg_requestWord, Nat.mod_eq_of_lt h]

/-- Only the requests are encoded as request words. -/
theorem exists_requestInstr_of_encode_req {argW : Nat} {i : Instr} {w : ReqWord} (h : encode argW i = .req w) :
    ∃ op arg, i = requestInstr op arg := by
  cases i with
  | connect arg => exact ⟨.connect, arg, rfl⟩
  | close arg => exact ⟨.close, arg, rfl⟩
  | readCo2 arg => exact ⟨.readCo2, arg, rfl⟩
  | zeroCal arg => exact ⟨.zeroCal, arg, rfl⟩
  | spanCal arg => exact ⟨.spanCal, arg, rfl⟩
  | setAbc arg => exact ⟨.setAbc, arg, rfl⟩
  | setRange arg => exact ⟨.setRange, arg, rfl⟩
  | reserved7 arg => exact ⟨.reserved7, arg, rfl⟩
  | frameReadCo2 | frameZeroCal | frameSpanCal | frameSetAbc | frameSetRange | frameResponse => cases h

theorem decode_req_of_lt {argW : Nat} {w : ReqWord} (h : w < 2 ^ (3 + argW)) :
    decode argW (.req w) = .ok (decodeRequest argW w) :=
  if_pos h

theorem decode_req_tooWide {argW : Nat} {w : ReqWord} (h : 2 ^ (3 + argW) ≤ w) :
    decode argW (.req w) = .error .tooWide :=
  if_neg (Nat.not_lt.mpr h)

theorem decode_req_eq_ok_iff (argW : Nat) (w : ReqWord) (i : Instr) :
    decode argW (.req w) = .ok i ↔ argFits argW i = true ∧ encode argW i = .req w := by
  constructor
  · intro h
    rcases Nat.lt_or_ge w (2 ^ (3 + argW)) with hw | hw
    · obtain rfl : decodeRequest argW w = i := by simpa [decode_req_of_lt hw] using h
      simp [decodeRequest, wordArg_lt, requestWord_word hw]
    · simp [decode_req_tooWide hw] at h
  · rintro ⟨hfits, henc⟩
    obtain ⟨op, arg, rfl⟩ := exists_requestInstr_of_encode_req henc
    obtain rfl : requestWord argW op arg = w := by simpa using henc
    rw [decode_req_of_lt (requestWord_lt argW op arg), decodeRequest_requestWord op (by simpa using hfits)]

/-! ### Command frames (30_encoding.md R62, R64, R65) -/

/-- A check that was passed: the answer is that of the rest. -/
theorem of_ite_error_eq_ok {ε α : Type} {c : Prop} [Decidable c] {e : ε} {x : Except ε α} {a : α}
    (h : (if c then .error e else x) = .ok a) : ¬ c ∧ x = .ok a := by
  split at h
  · cases h
  · exact ⟨‹_›, h⟩

/-- A last check that was passed. -/
theorem of_ite_ok_eq_ok {ε α : Type} {c : Prop} [Decidable c] {e : ε} {b a : α}
    (h : (if c then .ok b else .error e : Except ε α) = .ok a) : c ∧ b = a := by
  split at h
  · exact ⟨‹_›, Except.ok.inj h⟩
  · cases h

/-- A frame with the fixed bytes of a command frame, written with its three other body bytes. -/
theorem commandFrame_of_bytes {f : Frame} {opcode d0 d1 : Byte} (h0 : ¬ f.b0 ≠ header) (h1 : ¬ f.b1 ≠ addr)
    (hz : ¬ (f.b5 ≠ 0x00 ∨ f.b6 ≠ 0x00 ∨ f.b7 ≠ 0x00)) (h2 : f.b2 = opcode) (h3 : f.b3 = d0) (h4 : f.b4 = d1) :
    { toBody := commandBody opcode d0 d1, b8 := f.b8 } = f := by
  obtain ⟨⟨⟩⟩ := f
  simp_all [commandBody]

/-- A frame that the command decoder reads is the encoding of what it reads: of the decoder's branches six give an
instruction, and in each the bytes tested are those the encoder writes. -/
theorem encode_of_decodeCommand (argW : Nat) {f : Frame} {i : Instr} (h : decodeCommand f = .ok i) :
    encode argW i = .cmd9 f := by
  unfold decodeCommand at h
  obtain ⟨h0, h⟩ := of_ite_error_eq_ok h
  obtain ⟨h1, h⟩ := of_ite_error_eq_ok h
  obtain ⟨hz, h⟩ := of_ite_error_eq_ok h
  have row {opcode d0 d1 : Byte} (h2 : f.b2 = opcode) (h3 : f.b3 = d0) (h4 : f.b4 = d1) :
      Encoded.cmd9 { toBody := commandBody opcode d0 d1, b8 := f.b8 } = .cmd9 f :=
    congrArg Encoded.cmd9 (commandFrame_of_bytes h0 h1 hz h2 h3 h4)
  rcases ite_eq_iff.mp h with ⟨h2, h⟩ | ⟨-, h⟩
  · obtain ⟨⟨h3, h4⟩, rfl⟩ := of_ite_ok_eq_ok h
    exact row h2 h3 h4
  rcases ite_eq_iff.mp h with ⟨h2, h⟩ | ⟨-, h⟩
  · obtain ⟨⟨h3, h4⟩, rfl⟩ := of_ite_ok_eq_ok h
    exact row h2 h3 h4
  rcases ite_eq_iff.mp h with ⟨h2, h⟩ | ⟨-, h⟩
  · cases h
    exact row h2 (hi8_be16 _ _).symm (lo8_be16 _ _).symm
  rcases ite_eq_iff.mp h with ⟨h2, h⟩ | ⟨-, h⟩
  · obtain ⟨h4, h⟩ := of_ite_error_eq_ok h
    rcases ite_eq_iff.mp h with ⟨h3, h⟩ | ⟨-, h⟩
    · cases h
      exact row h2 h3 (not_not.mp h4)
    · obtain ⟨h3, rfl⟩ := of_ite_ok_eq_ok h
      exact row h2 h3 (not_not.mp h4)
  obtain ⟨h2, rfl⟩ := of_ite_ok_eq_ok h
  exact row h2 (hi8_be16 _ _).symm (lo8_be16 _ _).symm

/-- The command decoder reads every encoded command frame back. -/
theorem decodeCommand_of_encode {argW : Nat} {f : Frame} {i : Instr} (h : encode argW i = .cmd9 f) :
    decodeCommand f = .ok i := by
  cases i with
  | frameReadCo2 chk | frameZeroCal chk => cases h; rfl
  | frameSetAbc enabled chk => cases h; cases enabled <;> rfl
  | frameSpanCal value chk =>
    cases h
    exact congrArg (fun v => Except.ok (Instr.frameSpanCal v chk)) (be16_hi8_lo8 value)
  | frameSetRange value chk =>
    cases h
    exact congrArg (fun v => Except.ok (Instr.frameSetRange v chk)) (be16_hi8_lo8 value)
  | connect | close | readCo2 | zeroCal | spanCal | setAbc | setRange | reserved7 | frameResponse => cases h

theorem decodeCommand_eq_ok_iff (argW : Nat) (f : Frame) (i : Instr) :
    decodeCommand f = .ok i ↔ encode argW i = .cmd9 f :=
  ⟨encode_of_decodeCommand argW, decodeCommand_of_encode⟩

/-! ### Reply frames (30_encoding.md R63) -/

/-- The bytes of a reply, put together into its fields and cut into bytes again. -/
theorem replyFrame_of_bytes {f : Frame} (h : f.b0 = header) :
    { toBody := replyBody f.b1 (be16 f.b2 f.b3) (be32 f.b4 f.b5 f.b6 f.b7), b8 := f.b8 } = f := by
  simp [replyBody, ← h]

theorem decodeReply_of_header {f : Frame} (h : f.b0 = header) :
    decodeReply f = .ok (.frameResponse f.b1 (be16 f.b2 f.b3) (be32 f.b4 f.b5 f.b6 f.b7) f.b8) :=
  if_neg (not_not.mpr h)

theorem decodeReply_badHeader {f : Frame} (h : f.b0 ≠ header) : decodeReply f = .error .badHeader := if_pos h

theorem decodeReply_eq_ok_iff (argW : Nat) (f : Frame) (i : Instr) :
    decodeReply f = .ok i ↔ encode argW i = .rsp9 f := by
  constructor
  · intro h
    by_cases h0 : f.b0 = header
    · rw [decodeReply_of_header h0] at h
      cases h
      exact congrArg Encoded.rsp9 (replyFrame_of_bytes h0)
    · simp [decodeReply_badHeader h0] at h
  · intro h
    cases i with
    | frameResponse echo conc rem chk =>
      cases h
      rw [decodeReply_of_header rfl]
      simp [replyBody, be32_bytes]
    | _ => cases h

/-! ### All three formats -/

/-- Only a request has an argument that may not fit. -/
theorem argFits_of_encode_ne_req {argW : Nat} {i : Instr} (h : ∀ w, encode argW i ≠ .req w) :
    argFits argW i = true := by
  cases i with
  | frameReadCo2 | frameZeroCal | frameSpanCal | frameSetAbc | frameSetRange | frameResponse => rfl
  | connect | close | readCo2 | zeroCal | spanCal | setAbc | setRange | reserved7 => exact absurd rfl (h _)

/-- The decoder answers an instruction exactly when the instruction fits and the word is its encoding. -/
theorem decode_eq_ok_iff (argW : Nat) (e : Encoded) (i : Instr) :
    decode argW e = .ok i ↔ argFits argW i = true ∧ encode argW i = e := by
  cases e with
  | req w => exact decode_req_eq_ok_iff argW w i
  | cmd9 f =>
    rw [decode, decodeCommand_eq_ok_iff argW]
    exact ⟨fun h => ⟨argFits_of_encode_ne_req (by simp [h]), h⟩, And.right⟩
  | rsp9 f =>
    rw [decode, decodeReply_eq_ok_iff argW]
    exact ⟨fun h => ⟨argFits_of_encode_ne_req (by simp [h]), h⟩, And.right⟩

/-! ### The numbers of the opcode table (log 3, log 4) -/

theorem decodeTableWord_eq_some_iff (nbits w : Nat) (i : Instr) :
    decodeTableWord nbits w = some i ↔ decodeWord nbits w = .ok i := by
  unfold decodeTableWord
  cases decodeWord nbits w <;> simp

/-- The number of a request word is read as the request word. -/
theorem decodeWord_req (w : ReqWord) : decodeWord 40 w = decode tableArgW (.req w) := rfl

/-- The number of a frame that is a command frame is read as the command (log 4). -/
theorem decodeWord_of_command {f : Frame} {i : Instr} (h : decodeCommand f = .ok i) :
    decodeWord 72 (frameBits f).toNat = .ok i := by
  simpa [decodeWord, h] using (frameBits f).isLt

/-- The number of any other frame is read as a reply. -/
theorem decodeWord_of_not_command {f : Frame} (h : ∀ j, decodeCommand f ≠ .ok j) :
    decodeWord 72 (frameBits f).toNat = decodeReply f := by
  cases hd : decodeCommand f with
  | ok j => exact absurd hd (h j)
  | error e =>
    have hlt : (frameBits f).toNat < 2 ^ 72 := (frameBits f).isLt
    simp only [decodeWord, hlt, if_true, BitVec.ofNat_toNat, BitVec.setWidth_eq, frameOfBits_frameBits, hd]
    rfl

end Sys2Proof
end

section
/-! SUPPORT. The fields of the completion word (30_encoding.md R68). -/

namespace Sys2Proof.Machine

theorem completionTop_status (c : Completion) : (completionTop c).extractLsb' 4 4 = statusCode c.status := by
  simp (disch := decide) only [completionTop, extract_append_of_ge, Nat.reduceSub, BitVec.extractLsb'_eq_self]

theorem completionTop_attempts (c : Completion) : (completionTop c).extractLsb' 2 2 = c.attempts := by
  simp (disch := decide) only [completionTop, extract_append_of_ge, Nat.reduceSub, extract_append_low]

theorem completionTop_rspValid (c : Completion) : (completionTop c).getLsbD 1 = c.rspValid :=
  BitVec.getLsbD_concat_succ.trans BitVec.getLsbD_concat_zero

theorem completionTop_ppmValid (c : Completion) : (completionTop c).getLsbD 0 = c.ppmValid :=
  BitVec.getLsbD_concat_zero

/-- Without a Response there is no completion word (log 12). -/
theorem completionBits_of_absent {c : Completion} (h : c.rsp = none) : completionBits c = none := by
  simp [completionBits, h]

theorem completionBits_of_present {c : Completion} {r : Response} (h : c.rsp = some r) :
    completionBits c = some (completionTop c ++ r.echo ++ r.conc ++ r.rem ++ r.chk) := by
  simp [completionBits, h]

end Sys2Proof.Machine
end

section
/-! SUPPORT. What an operation reads of its argument (30_encoding.md R64, R66), and what the frames of the builder are
as instructions (R65). -/

namespace Sys2Proof.Machine

/-! ### The bits of the argument that an operation uses -/

/-- Only `SPAN_CAL` and `SET_RANGE` check their argument (40_frame_codec.md R88). -/
theorem argOk_of_unchecked {n : Nat} {cfg : Config} {op : Op} (arg : BitVec n) (hspan : op ≠ .spanCal)
    (hrange : op ≠ .setRange) : argOk cfg op arg = true := by
  cases op with
  | spanCal => exact absurd rfl hspan
  | setRange => exact absurd rfl hrange
  | connect | close | readCo2 | zeroCal | setAbc | reserved7 => rfl

/-- Bit 0 of an argument is its parity, at every width. -/
theorem operandEnabled_argBits_congr (argW : Nat) {a b : Arg} (h : a % 2 = b % 2) :
    operandEnabled (argBits argW a) = operandEnabled (argBits argW b) := by
  simp [operandEnabled, argBits, BitVec.getLsbD_ofNat, Nat.testBit_zero, h]

/-- Apart from `SPAN_CAL` and `SET_RANGE`, only `SET_ABC` has data that depend on the argument: on its bit 0. -/
theorem dataBytes_congr {n : Nat} {op : Op} {a b : BitVec n} (hspan : op ≠ .spanCal) (hrange : op ≠ .setRange)
    (habc : op = .setAbc → operandEnabled a = operandEnabled b) : dataBytes op a = dataBytes op b := by
  cases op with
  | spanCal => exact absurd rfl hspan
  | setRange => exact absurd rfl hrange
  | setAbc => simp only [dataBytes, habc]
  | connect | close | readCo2 | zeroCal | reserved7 => rfl

/-- The builder reads its argument through the check and the data bytes only. -/
theorem build_congr {n : Nat} {cfg : Config} {op : Op} {a b : BitVec n} (hok : argOk cfg op a = argOk cfg op b)
    (hdata : dataBytes op a = dataBytes op b) : build cfg op a = build cfg op b := by
  simp only [build, hok, hdata]

theorem sensorDispatch_congr {n : Nat} {op : Op} {a b : BitVec n} {s : State}
    (h : build s.cfg op a = build s.cfg op b) : sensorDispatch op a s = sensorDispatch op b s := by
  simp only [sensorDispatch, h]

/-- A request that is no sensor command does not read its argument. -/
theorem dispatchOf_not_sensor {op : Op} (h : isSensor op = false) (a b : Arg) : dispatchOf op a = dispatchOf op b := by
  cases op with
  | connect | close | reserved7 => rfl
  | readCo2 | zeroCal | spanCal | setAbc | setRange => cases h

theorem dispatchOf_congr {op : Op} {a b : Arg} (s : State) (hspan : op ≠ .spanCal) (hrange : op ≠ .setRange)
    (habc : op = .setAbc → a % 2 = b % 2) : dispatchOf op a s = dispatchOf op b s := by
  cases hs : isSensor op with
  | false => exact congrFun (dispatchOf_not_sensor hs a b) s
  | true =>
    rw [dispatchOf_sensor hs, dispatchOf_sensor hs]
    refine sensorDispatch_congr (build_congr ?check ?data)
    case check => rw [argOk_of_unchecked _ hspan hrange, argOk_of_unchecked _ hspan hrange]
    case data => exact dataBytes_congr hspan hrange fun h => operandEnabled_argBits_congr _ (habc h)

/-! ### The frames of the builder as instructions -/

theorem hi8_congr {n m : Nat} {v : BitVec n} {w : BitVec m} (h : v.toNat = w.toNat) : hi8 v = hi8 w := by
  simp [hi8, BitVec.extractLsb', h]

theorem lo8_congr {n m : Nat} {v : BitVec n} {w : BitVec m} (h : v.toNat = w.toNat) : lo8 v = lo8 w := by
  simp [lo8, BitVec.extractLsb', h]

/-- `SPAN_CAL` takes exactly the arguments that are the value of 16 bits (40_frame_codec.md R88). -/
theorem argOk_spanCal_iff {n : Nat} (cfg : Config) (arg : BitVec n) :
    argOk cfg .spanCal arg = true ↔ ∃ ppm : BitVec 16, ppm.toNat = arg.toNat := by
  constructor
  · intro h
    have hle : arg.toNat ≤ 65535 := of_decide_eq_true h
    exact ⟨BitVec.ofNat 16 arg.toNat, by rw [BitVec.toNat_ofNat]; omega⟩
  · rintro ⟨ppm, hppm⟩
    have hlt := ppm.isLt
    exact decide_eq_true (by omega)

/-- `SET_RANGE` takes exactly the values of the members of `RANGE_SET` (40_frame_codec.md R88). -/
theorem argOk_setRange_iff {n : Nat} (cfg : Config) (arg : BitVec n) :
    argOk cfg .setRange arg = true ↔ ∃ range ∈ cfg.rangeSet, range.toNat = arg.toNat := by
  simp [argOk]

/-- Every frame built is the encoding of an instruction that meets the constraint of its row. -/
theorem build_encodes {n : Nat} {cfg : Config} {op : Op} {arg : BitVec n} {f : Frame} (argW : Nat)
    (h : build cfg op arg = some f) : ∃ i, rowConstraint cfg i = true ∧ encode argW i = .cmd9 f := by
  obtain ⟨opcode, hop, hok, rfl⟩ := (build_eq_some_iff cfg op arg f).mp h
  cases op with
  | connect | close | reserved7 => cases hop
  | readCo2 => cases hop; exact ⟨.frameReadCo2 (commandChk 0x86 0x00 0x00), beq_self_eq_true _, rfl⟩
  | zeroCal => cases hop; exact ⟨.frameZeroCal (commandChk 0x87 0x00 0x00), beq_self_eq_true _, rfl⟩
  | setAbc =>
    cases hop
    exact ⟨.frameSetAbc (operandEnabled arg) (commandChk 0x79 (abcByte (operandEnabled arg)) 0x00),
      beq_self_eq_true _, rfl⟩
  | spanCal =>
    cases hop
    obtain ⟨ppm, hppm⟩ := (argOk_spanCal_iff cfg arg).mp hok
    refine ⟨.frameSpanCal ppm (commandChk 0x88 (hi8 ppm) (lo8 ppm)), beq_self_eq_true _, ?_⟩
    rw [dataBytes, ← hi8_congr hppm, ← lo8_congr hppm]
    rfl
  | setRange =>
    cases hop
    obtain ⟨range, hmem, hrange⟩ := (argOk_setRange_iff cfg arg).mp hok
    refine ⟨.frameSetRange range (commandChk 0x99 (hi8 range) (lo8 range)), by simp [rowConstraint, hmem], ?_⟩
    rw [dataBytes, ← hi8_congr hrange, ← lo8_congr hrange]
    rfl

/-- Every frame built decodes to a well-formed instruction (30_encoding.md R65, R66). -/
theorem build_decodes_wellFormed {n : Nat} {cfg : Config} {op : Op} {arg : BitVec n} {f : Frame}
    (h : build cfg op arg = some f) : ∃ i, decodeCommand f = .ok i ∧ wellFormed cfg i = true := by
  obtain ⟨i, hrow, henc⟩ := build_encodes cfg.argW h
  have hfits : argFits cfg.argW i = true := argFits_of_encode_ne_req (by simp [henc])
  exact ⟨i, decodeCommand_of_encode henc, by simp [wellFormed, hfits, hrow]⟩

/-! ### The frames handed to the transport -/

/-- A `TWrite` issued by now was issued before, or is of the frame built for the request in progress. -/
theorem step_writes {s t : State} {f : Frame} (h : step s = .next t) (hf : .tWrite f ∈ t.calls) :
    .tWrite f ∈ s.calls ∨ (isSensor s.cmdOp = true ∧ buildRequest s.cfg s.cmdOp s.cmdArg = some f) := by
  cases step_moves h with
  | transmit g hr hp hsensor hbuild =>
    rcases List.mem_append.mp hf with hold | hnew
    · exact .inl hold
    · obtain rfl : f = g := by simpa using hnew
      exact .inr ⟨hsensor, hbuild⟩
  | startOpen | close | written | retry => exact .inl (by simpa using hf)
  | _ => exact .inl hf

theorem step_keeps_wireClean {s t : State} (hs : WireClean s) (h : step s = .next t) : WireClean t := by
  intro f hf
  rw [step_cfg h]
  rcases step_writes h hf with hold | ⟨hsensor, hbuild⟩
  · exact hs f hold
  · exact ⟨⟨s.cmdOp, s.cmdArg, hsensor, hbuild⟩, build_decodes_wellFormed hbuild⟩

theorem wireClean_of_reachable {cfg : Config} {s : State} (h : Reachable cfg s) : WireClean s :=
  reachable_keeps (P := WireClean) (fun _ hf => absurd hf List.not_mem_nil)
    (fun _ _ _ hs h => step_keeps_wireClean hs h) (fun _ _ => id) (fun _ => id) (fun _ _ => id) (fun _ _ => id)
    (fun _ _ => id) h

end Sys2Proof.Machine
end

section
/-! PROOF. The obligations about the encodings (30_encoding.md): the round trips, the words of the table, the completion
word, unused argument bits, and the frames on the wire. -/

namespace Sys2Proof

open Machine

/-- Settles O10: an instruction that fits is what the decoder answers on its own encoding. -/
theorem decodeAfterEncode : Obligations.DecodeAfterEncode := fun argW i hfits =>
  (decode_eq_ok_iff argW (encode argW i) i).mpr ⟨hfits, rfl⟩

/-- Settles O11: on a word that fits the port the decoder answers, and what it answers encodes to that word. -/
theorem encodeAfterDecodeRequest : Obligations.EncodeAfterDecodeRequest := by
  intro argW w
  refine ⟨fun hw => ?_, decode_req_tooWide⟩
  have hd : decode argW (.req w) = .ok (decodeRequest argW w) := decode_req_of_lt hw
  exact ⟨decodeRequest argW w, hd, (decode_eq_ok_iff argW (.req w) _).mp hd⟩

/-- Settles O12, decoder by decoder. -/
theorem encodeAfterDecodeFrame : Obligations.EncodeAfterDecodeFrame := fun argW f i =>
  ⟨(decodeCommand_eq_ok_iff argW f i).mp, (decodeReply_eq_ok_iff argW f i).mp⟩

/-- Settles O13, format by format: a table number is read as the word it numbers. -/
theorem tableWordDecodes : Obligations.TableWordDecodes := by
  intro i hfits hreply
  rw [decodeTableWord_eq_some_iff]
  cases henc : encode 32 i with
  | req w => exact (decodeWord_req w).trans ((decode_eq_ok_iff 32 (.req w) i).mpr ⟨hfits, henc⟩)
  | cmd9 f => exact decodeWord_of_command (decodeCommand_of_encode henc)
  | rsp9 f => exact (decodeWord_of_not_command fun j => hreply f j henc).trans ((decodeReply_eq_ok_iff 32 f i).mpr henc)

/-- Settles O16: the top byte field by field, then the word, of which each field is the low end of what stands above
the next. -/
theorem completionWordFields : Obligations.CompletionWordFields := by
  intro c
  refine ⟨completionTop_status c, completionTop_attempts c, completionTop_rspValid c, completionTop_ppmValid c,
    completionBits_of_absent, fun r hr => ⟨_, completionBits_of_present hr, ?fields⟩⟩
  case fields =>
    simp (disch := decide) only [extract_append_of_ge, Nat.reduceSub, extract_append_low, BitVec.extractLsb'_eq_self,
      and_self]

/-- Settles O35: in `DISPATCH` a request is its `DISPATCH` arm, and the arm reads the bits it uses only. -/
theorem unusedArgumentBitsIgnored : Obligations.UnusedArgumentBitsIgnored := by
  intro op a b s hp hspan hrange habc
  rw [exec_requestInstr, exec_requestInstr, requestStep_dispatch hp, requestStep_dispatch hp,
    dispatchOf_congr s hspan hrange habc]

/-- Settles O56: a step writes only frames of the builder, and no call has been issued at the start. -/
theorem wireCarriesOnlyCommandFrames : Obligations.WireCarriesOnlyCommandFrames :=
  ⟨fun _ _ hs h => step_keeps_wireClean hs h, fun _ _ h => wireClean_of_reachable h⟩

/-- Settles O15, word by word. -/
theorem sampleWordsDecode : Obligations.SampleWordsDecode := by
  unfold Obligations.SampleWordsDecode
  decide

end Sys2Proof
end

section
/-! SUPPORT. The checksum and the valid frames (40_frame_codec.md R80, R81, R92): both in the group of bytes modulo 256,
where an error in one byte cannot cancel. -/

namespace Sys2Proof.Machine

/-! ### The checksum -/

/-- The three operations of R80 are one subtraction modulo 256. -/
theorem toNat_checksum (b : Body) : (checksum b).toNat = (256 - bodySum b % 256) % 256 := by
  have low (n : Nat) : n &&& 0xFF = n % 256 := Nat.and_two_pow_sub_one_eq_mod n 8
  rw [checksum, BitVec.toNat_ofNat, low, low]
  omega

/-- 40_frame_codec.md R81 (a). -/
theorem bodySum_add_checksum (b : Body) : (bodySum b + (checksum b).toNat) % 256 = 0 := by
  rw [toNat_checksum]
  omega

/-- The sum of R80 may as well be taken in 8 bits. -/
theorem ofNat_bodySum (b : Body) : BitVec.ofNat 8 (bodySum b) = b.b1 + b.b2 + b.b3 + b.b4 + b.b5 + b.b6 + b.b7 := by
  simp [bodySum, BitVec.ofNat_add]

/-- 40_frame_codec.md R81 (b): the checksum is the 8-bit negation of the 8-bit sum. -/
theorem checksum_eq_neg_sum (b : Body) : checksum b = -(b.b1 + b.b2 + b.b3 + b.b4 + b.b5 + b.b6 + b.b7) := by
  rw [← ofNat_bodySum]
  apply BitVec.eq_of_toNat_eq
  rw [toNat_checksum, BitVec.toNat_neg, BitVec.toNat_ofNat]

/-! ### Valid frames -/

/-- The sum in 8 bits of all bytes of a frame but the header. -/
def frameSum (f : Frame) : Byte := f.b1 + f.b2 + f.b3 + f.b4 + f.b5 + f.b6 + f.b7 + f.b8

theorem valid9_iff (f : Frame) : valid9 f = true ↔ f.b0 = header ∧ f.b8 = checksum f.toBody := by simp [valid9]

/-- A frame is valid when it has the header and its other bytes add to 0: each of bytes 1 to 8 counts once. -/
theorem valid9_iff_frameSum (f : Frame) : valid9 f = true ↔ f.b0 = header ∧ frameSum f = 0 := by
  rw [valid9_iff, checksum_eq_neg_sum, eq_neg_iff_add_eq_zero, add_comm, frameSum]

theorem valid9_eq_false_of_frameSum_ne {f g : Frame} (hf : valid9 f = true) (h : frameSum g ≠ frameSum f) :
    valid9 g = false := by
  rw [Bool.eq_false_iff]
  intro hg
  obtain ⟨-, hsum⟩ := (valid9_iff_frameSum f).mp hf
  obtain ⟨-, hsum'⟩ := (valid9_iff_frameSum g).mp hg
  exact h (hsum'.trans hsum.symm)

theorem valid9_sealBody {b : Body} (h : b.b0 = header) : valid9 (sealBody b) = true :=
  (valid9_iff (sealBody b)).mpr ⟨h, rfl⟩

/-- A valid frame is its body, sealed. -/
theorem eq_sealBody_of_valid9 {f : Frame} (h : valid9 f = true) : f = sealBody { f.toBody with b0 := header } := by
  obtain ⟨h0, h8⟩ := (valid9_iff f).mp h
  rw [← h0, sealBody, ← h8]

end Sys2Proof.Machine
end

section
/-! SUPPORT. The frames that the builder builds, byte by byte (40_frame_codec.md R82 to R88), and what the parser answers
(R89 to R91). -/

namespace Sys2Proof.Machine

/-! ### The builder -/

/-- A concatenation is big-endian. -/
theorem toNat_append_byte {n : Nat} (x : BitVec n) (y : Byte) : (x ++ y).toNat = x.toNat * 256 + y.toNat := by
  rw [BitVec.toNat_append, ← Nat.shiftLeft_add_eq_or_of_lt y.isLt, Nat.shiftLeft_eq]

theorem toNat_be16 (hi lo : Byte) : (be16 hi lo).toNat = hi.toNat * 256 + lo.toNat := toNat_append_byte hi lo

theorem toNat_be32 (a b c d : Byte) :
    (be32 a b c d).toNat = ((a.toNat * 256 + b.toNat) * 256 + c.toNat) * 256 + d.toNat := by
  simp only [be32, toNat_append_byte]

/-- Every command frame written out: its checksum is `0xFF - opcode - d0 - d1`, since the address byte is 1. -/
theorem sealBody_commandBody (opcode d0 d1 : Byte) :
    sealBody (commandBody opcode d0 d1) =
      bytes9 0xFF 0x01 opcode d0 d1 0x00 0x00 0x00 (0xFF - opcode - d0 - d1) := by
  have hchk : checksum (commandBody opcode d0 d1) = 0xFF - opcode - d0 - d1 := by
    rw [checksum_eq_neg_sum]
    simp only [commandBody]
    bv_omega
  rw [sealBody, hchk]
  rfl

theorem build_of_argOk {n : Nat} {cfg : Config} {op : Op} {arg : BitVec n} {opcode d0 d1 : Byte}
    (hop : wireOpcode op = some opcode) (hok : argOk cfg op arg = true) (hdata : dataBytes op arg = (d0, d1)) :
    build cfg op arg = some (bytes9 0xFF 0x01 opcode d0 d1 0x00 0x00 0x00 (0xFF - opcode - d0 - d1)) := by
  rw [build_eq_some_iff]
  exact ⟨opcode, hop, hok, by rw [hdata, sealBody_commandBody]⟩

/-- `InvalidArgument`, before any byte is built (40_frame_codec.md R88). -/
theorem build_of_not_argOk {n : Nat} {cfg : Config} {op : Op} {arg : BitVec n} (h : argOk cfg op arg = false) :
    build cfg op arg = none := by
  rw [Option.eq_none_iff_forall_ne_some]
  intro f hf
  obtain ⟨-, -, hok, -⟩ := (build_eq_some_iff cfg op arg f).mp hf
  rw [h] at hok
  cases hok

/-- The sensor commands are the operations with a wire opcode (30_encoding.md R65). -/
theorem exists_wireOpcode_of_sensor {op : Op} (h : isSensor op = true) : ∃ opcode, wireOpcode op = some opcode := by
  cases op with
  | readCo2 | zeroCal | spanCal | setAbc | setRange => exact ⟨_, rfl⟩
  | connect | close | reserved7 => cases h

theorem exists_build_of_argOk {n : Nat} {cfg : Config} {op : Op} {arg : BitVec n} (hsensor : isSensor op = true)
    (hok : argOk cfg op arg = true) : ∃ f, build cfg op arg = some f := by
  obtain ⟨opcode, hop⟩ := exists_wireOpcode_of_sensor hsensor
  exact ⟨_, build_of_argOk hop hok rfl⟩

/-- The two bytes of an argument that is the value of two bytes, at every width. -/
theorem hi8_lo8_of_toNat {n : Nat} {arg : BitVec n} {hi lo : Byte} (h : arg.toNat = hi.toNat * 256 + lo.toNat) :
    (hi8 arg, lo8 arg) = (hi, lo) := by
  have hword : arg.toNat = (be16 hi lo).toNat := h.trans (toNat_be16 hi lo).symm
  rw [hi8_congr hword, lo8_congr hword, hi8_be16, lo8_be16]

theorem build_readCo2 {n : Nat} (cfg : Config) (arg : BitVec n) :
    build cfg .readCo2 arg = some (bytes9 0xFF 0x01 0x86 0x00 0x00 0x00 0x00 0x00 0x79) :=
  build_of_argOk (opcode := 0x86) rfl rfl rfl

theorem build_zeroCal {n : Nat} (cfg : Config) (arg : BitVec n) :
    build cfg .zeroCal arg = some (bytes9 0xFF 0x01 0x87 0x00 0x00 0x00 0x00 0x00 0x78) :=
  build_of_argOk (opcode := 0x87) rfl rfl rfl

theorem build_spanCal {n : Nat} (cfg : Config) {arg : BitVec n} {hi lo : Byte}
    (h : arg.toNat = hi.toNat * 256 + lo.toNat) :
    build cfg .spanCal arg = some (bytes9 0xFF 0x01 0x88 hi lo 0x00 0x00 0x00 (0x77 - hi - lo)) :=
  build_of_argOk (opcode := 0x88) rfl ((argOk_spanCal_iff cfg arg).mpr ⟨be16 hi lo, (toNat_be16 hi lo).trans h.symm⟩)
    (hi8_lo8_of_toNat h)

theorem build_setAbc {n : Nat} (cfg : Config) (arg : BitVec n) :
    build cfg .setAbc arg =
      some (if arg.getLsbD 0 then bytes9 0xFF 0x01 0x79 0xA0 0x00 0x00 0x00 0x00 0xE6
        else bytes9 0xFF 0x01 0x79 0x00 0x00 0x00 0x00 0x00 0x86) := by
  rw [build_of_argOk (opcode := 0x79) (d0 := abcByte (arg.getLsbD 0)) (d1 := 0x00) rfl rfl rfl]
  cases arg.getLsbD 0 <;> rfl

theorem build_setRange {n : Nat} {cfg : Config} {arg : BitVec n} {range : BitVec 16} {hi lo : Byte}
    (hmem : range ∈ cfg.rangeSet) (hrange : range.toNat = arg.toNat) (h : arg.toNat = hi.toNat * 256 + lo.toNat) :
    build cfg .setRange arg = some (bytes9 0xFF 0x01 0x99 hi lo 0x00 0x00 0x00 (0x66 - hi - lo)) :=
  build_of_argOk (opcode := 0x99) rfl ((argOk_setRange_iff cfg arg).mpr ⟨range, hmem, hrange⟩) (hi8_lo8_of_toNat h)

/-! ### The parser -/

theorem parse_of_short {len : Fin 10} (f : Frame) (h : len.val < 9) : parse len f = .error .incompleteResponse := if_pos h

theorem parse_of_badHeader {f : Frame} (h0 : f.b0 ≠ header) : parse 9 f = .error .invalidHeader := if_pos h0

theorem parse_of_badChecksum {f : Frame} (h0 : f.b0 = header) (h8 : checksum f.toBody ≠ f.b8) :
    parse 9 f = .error .checksumMismatch :=
  (if_neg (not_not.mpr h0)).trans (if_pos h8)

theorem parse_of_sealed {f : Frame} (h0 : f.b0 = header) (h8 : checksum f.toBody = f.b8) :
    parse 9 f = .ok (responseOf f) :=
  (if_neg (not_not.mpr h0)).trans (if_neg (not_not.mpr h8))

theorem parse_eq_ok_iff (f : Frame) (r : Response) : parse 9 f = .ok r ↔ valid9 f = true ∧ r = responseOf f := by
  rw [valid9_iff]
  constructor
  · intro h
    rcases parse_cases 9 f with ⟨-, he⟩ | ⟨-, -, he⟩ | ⟨-, -, -, he⟩ | ⟨-, h0, h8, hok⟩
    · simp [he] at h
    · simp [he] at h
    · simp [he] at h
    · exact ⟨⟨h0, h8.symm⟩, Except.ok.inj (h.symm.trans hok)⟩
  · rintro ⟨⟨h0, h8⟩, rfl⟩
    exact parse_of_sealed h0 h8.symm

end Sys2Proof.Machine
end

section
/-! SUPPORT. The step of a frame row by phase (log 15), and what the `DISPATCH` step of a sensor command leaves, written
out (41_transaction_engine.md R102, R106). -/

namespace Sys2Proof.Machine

/-- A completion that reports no Response reports no concentration either (10_state.md R24 (h)). -/
theorem ppmValidAfter_of_not_rspValidAfter {st : Status} {op : Op} (h : rspValidAfter st op = false) :
    ppmValidAfter st op = false := by
  rw [Bool.eq_false_iff]
  intro hppm
  obtain ⟨rfl, rfl⟩ := (ppmValidAfter_eq_true_iff st op).mp hppm
  exact absurd h (by decide)

/-- A completion without a Response leaves what `endedWithout` writes out: neither Response flag is set, and the Response
registers stay as they were. -/
theorem complete_none_eq_endedWithout {st : Status} {s : State} (h : st ≠ .ok ∨ isSensor s.cmdOp = false) :
    complete st none s = endedWithout st s := by
  have hrsp : rspValidAfter st s.cmdOp = false := by
    rcases h with h | h
    · simp [rspValidAfter, h]
    · simp [rspValidAfter, h]
  have hppm := ppmValidAfter_of_not_rspValidAfter hrsp
  have hrecord : recordOf (finish st none s) = ⟨st, s.attempt, false, false, none⟩ := by
    simp [recordOf_finish, hrsp, hppm]
  rw [complete, emit, hrecord]
  simp [finish, endedWithout, hrsp, hppm]

/-! ### Command frames -/

theorem commandFrameStep_dispatch {n : Nat} (op : Op) (arg : BitVec n) {s : State} (hp : s.phase = .dispatch) :
    commandFrameStep op arg s = sensorDispatch op arg s := by
  simp [commandFrameStep, hp]

theorem commandFrameStep_outOfPlace {n : Nat} (op : Op) (arg : BitVec n) {s : State} (hd : s.phase ≠ .dispatch)
    (hw : s.phase ≠ .writeWait) : commandFrameStep op arg s = s := by
  cases hp : s.phase with
  | dispatch => exact absurd hp hd
  | writeWait => exact absurd hp hw
  | idle | openWait | readWait | parse => simp [commandFrameStep, hp]

/-- Every command frame runs the shared step of the command frames. -/
theorem exec_of_encode_cmd9 {argW : Nat} {i : Instr} {f : Frame} (h : encode argW i = .cmd9 f) :
    ∃ (op : Op) (n : Nat) (arg : BitVec n), ∀ s, exec i s = .next (commandFrameStep op arg s) := by
  cases i with
  | frameReadCo2 | frameZeroCal | frameSpanCal | frameSetAbc | frameSetRange => exact ⟨_, _, _, fun _ => rfl⟩
  | connect | close | readCo2 | zeroCal | spanCal | setAbc | setRange | reserved7 | frameResponse => cases h

theorem sensorDispatch_opened {n : Nat} {op : Op} {arg : BitVec n} {f : Frame} {s : State} (hc : s.conn = .opened)
    (hbuild : build s.cfg op arg = some f) : sensorDispatch op arg s = handedOver f s := by
  simp [sensorDispatch, hbuild, hc, transmit, issue, handedOver]

theorem sensorDispatch_notConnected {n : Nat} {op : Op} {arg : BitVec n} {s : State} (hc : s.conn ≠ .opened)
    (hsensor : isSensor op = true) (hok : argOk s.cfg op arg = true) :
    sensorDispatch op arg s = endedWithout .notConnected s := by
  obtain ⟨f, hbuild⟩ := exists_build_of_argOk hsensor hok
  rw [← complete_none_eq_endedWithout (.inl (by decide))]
  simp [sensorDispatch, hbuild, hc]

/-- The argument is checked before the connection (log 16). -/
theorem sensorDispatch_invalidArgument {n : Nat} {op : Op} {arg : BitVec n} {s : State}
    (h : argOk s.cfg op arg = false) : sensorDispatch op arg s = endedWithout .invalidArgument s := by
  rw [← complete_none_eq_endedWithout (.inl (by decide))]
  simp [sensorDispatch, build_of_not_argOk h]

/-- A value of 16 bits passes the check of `SET_RANGE` exactly when it is a member of `RANGE_SET`. -/
theorem argOk_setRange_word (cfg : Config) (range : BitVec 16) :
    argOk cfg .setRange range = true ↔ range ∈ cfg.rangeSet := by
  simp [argOk_setRange_iff, ← BitVec.toNat_eq]

/-! ### Reply frames -/

theorem replyFrameStep_outOfPlace (f : Frame) {s : State} (hr : s.phase ≠ .readWait) (hp : s.phase ≠ .parse) :
    replyFrameStep f s = s := by
  cases h : s.phase with
  | readWait => exact absurd h hr
  | parse => exact absurd h hp
  | idle | dispatch | openWait | writeWait => simp [replyFrameStep, h]

theorem exec_of_encode_rsp9 {argW : Nat} {i : Instr} {f : Frame} (h : encode argW i = .rsp9 f) (s : State) :
    exec i s = .next (replyFrameStep f s) :=
  exec_replyFrame ((decodeReply_eq_ok_iff argW f i).mpr h) s

end Sys2Proof.Machine
end

section
/-! PROOF. The obligations about the frame codec (40_frame_codec.md): the checksum, the frames built, the parser, and the
frame rows in and out of place. -/

namespace Sys2Proof.Machine

/-- Settles O18. -/
theorem checksumIsAdditiveInverse : Obligations.ChecksumIsAdditiveInverse := fun b =>
  ⟨toNat_checksum b, bodySum_add_checksum b, checksum_eq_neg_sum b, fun _ => rfl⟩

/-- Settles O19: a changed byte changes the sum of the frame, and with it whether that sum is 0. -/
theorem singleByteErrorDetected : Obligations.SingleByteErrorDetected := by
  intro f x hf
  refine ⟨fun hx => ?_, fun hx => ?_, fun hx => ?_, fun hx => ?_, fun hx => ?_, fun hx => ?_, fun hx => ?_,
    fun hx => ?_⟩
  all_goals exact valid9_eq_false_of_frameSum_ne hf (by simpa [frameSum] using hx)

/-- Settles O20: the one frame is the body sealed. -/
theorem validFramesAreSevenFreeBytes : Obligations.ValidFramesAreSevenFreeBytes := by
  intro b1 b2 b3 b4 b5 b6 b7
  refine ⟨sealBody ⟨header, b1, b2, b3, b4, b5, b6, b7⟩, ⟨valid9_sealBody rfl, rfl, rfl, rfl, rfl, rfl, rfl, rfl⟩, ?_⟩
  rintro g hg rfl rfl rfl rfl rfl rfl rfl
  exact eq_sealBody_of_valid9 hg

/-- Settles O21. -/
theorem buildReadCo2Frame : Obligations.BuildReadCo2Frame := fun cfg _ arg => build_readCo2 cfg arg

/-- Settles O22. -/
theorem buildZeroCalFrame : Obligations.BuildZeroCalFrame := fun cfg _ arg => build_zeroCal cfg arg

/-- Settles O23: the arguments taken are the values of 16 bits. -/
theorem buildSpanCalFrame : Obligations.BuildSpanCalFrame := by
  intro cfg n arg
  refine ⟨fun hbig => build_of_not_argOk ?rejected, fun hi lo h => build_spanCal cfg h⟩
  case rejected =>
    rw [Bool.eq_false_iff, ne_eq, argOk_spanCal_iff]
    rintro ⟨ppm, hppm⟩
    have hlt := ppm.isLt
    omega

/-- Settles O24. -/
theorem buildSetAbcFrame : Obligations.BuildSetAbcFrame := fun cfg _ arg => build_setAbc cfg arg

/-- Settles O25: the rule for any set, then the five frames of the default set by that rule. -/
theorem buildSetRangeFrame : Obligations.BuildSetRangeFrame := by
  refine ⟨fun cfg n arg => ⟨fun hnone => build_of_not_argOk ?rejected, fun range hmem hrange hi lo h =>
    build_setRange hmem hrange h⟩, ?_, ?_, ?_, ?_, ?_⟩
  case rejected =>
    rw [Bool.eq_false_iff, ne_eq, argOk_setRange_iff]
    rintro ⟨range, hmem, hrange⟩
    exact hnone range hmem hrange
  · exact build_setRange (range := 1000) (hi := 0x03) (lo := 0xE8) (by decide) rfl rfl
  · exact build_setRange (range := 2000) (hi := 0x07) (lo := 0xD0) (by decide) rfl rfl
  · exact build_setRange (range := 3000) (hi := 0x0B) (lo := 0xB8) (by decide) rfl rfl
  · exact build_setRange (range := 5000) (hi := 0x13) (lo := 0x88) (by decide) rfl rfl
  · exact build_setRange (range := 10000) (hi := 0x27) (lo := 0x10) (by decide) rfl rfl

/-- Settles O26: a frame built is sealed, so it is valid, and the parser cuts its opcode out as the high byte. -/
theorem builtFramesAreValidAndLoopBack : Obligations.BuiltFramesAreValidAndLoopBack := by
  intro cfg op n arg f h
  obtain ⟨h0, h1, h8⟩ := build_sealed h
  have hvalid : valid9 f = true := (valid9_iff f).mpr ⟨h0, h8⟩
  obtain ⟨opcode, hop, -, rfl⟩ := (build_eq_some_iff cfg op arg f).mp h
  exact ⟨hvalid, hop, _, (parse_eq_ok_iff _ _).mpr ⟨hvalid, rfl⟩, h1, toNat_be16 _ _⟩

/-- Settles O27, check by check. -/
theorem parseChecksInOrder : Obligations.ParseChecksInOrder := by
  intro len r
  refine ⟨parse_of_short r, fun hlen h0 => ?header, fun hlen h0 h8 => ?checksum, fun hlen h0 h8 => ?accepted⟩
  all_goals obtain rfl : len = 9 := Fin.ext hlen
  case header => exact parse_of_badHeader h0
  case checksum => exact parse_of_badChecksum h0 h8
  case accepted => exact ⟨responseOf r, parse_of_sealed h0 h8, rfl, toNat_be16 _ _, toNat_be32 _ _ _ _, rfl⟩

/-- Settles O28. -/
theorem parseAcceptsExactlyValidFrames : Obligations.ParseAcceptsExactlyValidFrames := by
  intro f
  simp only [parse_eq_ok_iff, exists_and_left, exists_eq, and_true]

/-- Settles O40: in `DISPATCH` a command frame is the sensor command it belongs to. -/
theorem commandFrameIsHandedOver : Obligations.CommandFrameIsHandedOver := by
  intro chk s hp
  have handed {n : Nat} {op : Op} {arg : BitVec n} {f : Frame} (hc : s.conn = .opened)
      (hbuild : build s.cfg op arg = some f) :
      (.next (commandFrameStep op arg s) : Host.Outcome State Fault Refusal) = .next (handedOver f s) := by
    rw [commandFrameStep_dispatch op arg hp, sensorDispatch_opened hc hbuild]
  have turnedAway {n : Nat} {op : Op} {arg : BitVec n} (hc : s.conn ≠ .opened) (hsensor : isSensor op = true)
      (hok : argOk s.cfg op arg = true) :
      (.next (commandFrameStep op arg s) : Host.Outcome State Fault Refusal) = .next (endedWithout .notConnected s) := by
    rw [commandFrameStep_dispatch op arg hp, sensorDispatch_notConnected hc hsensor hok]
  refine ⟨fun hc => ⟨?_, ?_, fun hi lo => ?_, ?_, ?_, fun hi lo hmem => ?_⟩,
    fun hc => ⟨?_, ?_, fun ppm => ?_, fun enabled => ?_, fun range hmem => ?_⟩, fun range hmem => ?_⟩
  · exact handed hc (build_readCo2 _ _)
  · exact handed hc (build_zeroCal _ _)
  · exact handed hc (build_spanCal _ (toNat_append_byte hi lo))
  · exact handed hc (build_setAbc _ _)
  · exact handed hc (build_setAbc _ _)
  · exact handed hc (build_setRange hmem rfl (toNat_append_byte hi lo))
  · exact turnedAway hc rfl rfl
  · exact turnedAway hc rfl rfl
  · exact turnedAway hc rfl ((argOk_spanCal_iff _ _).mpr ⟨ppm, rfl⟩)
  · exact turnedAway hc rfl rfl
  · exact turnedAway hc rfl ((argOk_setRange_word _ _).mpr hmem)
  · have hbad : argOk s.cfg .setRange range = false := by rwa [Bool.eq_false_iff, ne_eq, argOk_setRange_word]
    exact congrArg Host.Outcome.next
      ((commandFrameStep_dispatch _ _ hp).trans (sensorDispatch_invalidArgument hbad))

/-- Settles O44, format by format. -/
theorem frameOutOfPlaceDoesNothing : Obligations.FrameOutOfPlaceDoesNothing := by
  intro i s
  refine ⟨fun ⟨f, henc⟩ hd hw => ?command, fun ⟨f, henc⟩ hr hp => ?reply⟩
  case command =>
    obtain ⟨op, n, arg, hexec⟩ := exec_of_encode_cmd9 henc
    rw [hexec, commandFrameStep_outOfPlace op arg hd hw]
  case reply => rw [exec_of_encode_rsp9 henc, replyFrameStep_outOfPlace f hr hp]

end Sys2Proof.Machine
end

section
/-! SUPPORT. With `RST` low, a step of a busy block is the step of the request in progress (41_transaction_engine.md R100,
log 1), and what that step is in each phase. -/

namespace Sys2Proof.Machine

/-! ### The instruction fetched -/

theorem fetch_idle {s : State} {w : ReqWord} {rest : List ReqWord} (hp : s.phase = .idle) (hq : s.requests = w :: rest) :
    fetch s = some (decodeRequest s.cfg.argW w) := by
  simp [fetch, hp, hq]

theorem fetch_dispatch {s : State} (hp : s.phase = .dispatch) : fetch s = some (inProgress s) := by simp [fetch, hp]

theorem fetch_openWait {s : State} (hp : s.phase = .openWait) :
    fetch s = s.openReplies.head?.map fun _ => inProgress s := by
  simp [fetch, hp]

theorem fetch_writeWait {s : State} (hp : s.phase = .writeWait) :
    fetch s = s.writeReplies.head?.map fun _ => frameOr (decodeCommand s.txbuf) s := by
  simp [fetch, hp]

theorem fetch_readWait {s : State} (hp : s.phase = .readWait) :
    fetch s = s.readReplies.head?.map fun r => replyInstr r s := by
  simp [fetch, hp]

theorem fetch_parse {s : State} (hp : s.phase = .parse) :
    fetch s = some (if s.rxlen = 9 then frameOr (decodeReply s.rxbuf) s else inProgress s) := by
  simp [fetch, hp]

/-! ### A request with no step enabled waits -/

theorem openDone_nil {s : State} (hq : s.openReplies = []) : openDone s = s := by simp [openDone, hq]

theorem writeDone_nil {s : State} (hq : s.writeReplies = []) : writeDone s = s := by simp [writeDone, hq]

theorem readDone_nil {s : State} (hq : s.readReplies = []) : readDone s = s := by simp [readDone, hq]

/-- Log 1: reading a busy block's step as the instruction fetched, as waiting, or as the request in progress comes to the
same. -/
theorem step_busy {s : State} (hr : s.rst = false) (hp : s.phase ≠ .idle) : step s = exec (inProgress s) s := by
  rw [inProgress, exec_requestInstr]
  cases hphase : s.phase with
  | idle => exact absurd hphase hp
  | dispatch =>
    rw [step_of_fetch hr (fetch_dispatch hphase), inProgress, exec_requestInstr]
  | openWait =>
    rw [requestStep_openWait hphase]
    cases hq : s.openReplies with
    | nil => rw [step_of_no_fetch hr (by simp [fetch_openWait hphase, hq]), openDone_nil hq]
    | cons ready rest =>
      rw [step_of_fetch hr (i := inProgress s) (by simp [fetch_openWait hphase, hq]), inProgress, exec_requestInstr,
        requestStep_openWait hphase]
  | writeWait =>
    rw [requestStep_writeWait hphase]
    cases hq : s.writeReplies with
    | nil => rw [step_of_no_fetch hr (by simp [fetch_writeWait hphase, hq]), writeDone_nil hq]
    | cons r rest =>
      rw [step_of_fetch hr (i := frameOr (decodeCommand s.txbuf) s) (by simp [fetch_writeWait hphase, hq]),
        exec_frameOr_writeWait _ hphase]
  | readWait =>
    rw [requestStep_readWait hphase]
    cases hq : s.readReplies with
    | nil => rw [step_of_no_fetch hr (by simp [fetch_readWait hphase, hq]), readDone_nil hq]
    | cons r rest =>
      rw [step_of_fetch hr (i := replyInstr r s) (by simp [fetch_readWait hphase, hq]), exec_replyInstr hphase hq]
  | parse => rw [step_of_fetch hr (fetch_parse hphase), exec_fetch_parse hphase, requestStep_parse hphase]

/-! ### The step of each phase -/

theorem step_idle_nil {s : State} (hr : s.rst = false) (hp : s.phase = .idle) (hq : s.requests = []) :
    step s = .next s :=
  step_of_no_fetch hr (by simp [fetch, hp, hq])

theorem step_idle_cons {s : State} {w : ReqWord} {rest : List ReqWord} (hr : s.rst = false) (hp : s.phase = .idle)
    (hq : s.requests = w :: rest) : step s = .next (accept (wordOp s.cfg.argW w) (wordArg s.cfg.argW w) s) := by
  rw [step_of_fetch hr (fetch_idle hp hq), decodeRequest, exec_requestInstr, requestStep_idle hp]

theorem step_dispatch {s : State} (hr : s.rst = false) (hp : s.phase = .dispatch) :
    step s = .next (dispatchOf s.cmdOp s.cmdArg s) := by
  rw [step_busy hr (by simp [hp]), inProgress, exec_requestInstr, requestStep_dispatch hp]

theorem step_openWait {s : State} (hr : s.rst = false) (hp : s.phase = .openWait) : step s = .next (openDone s) := by
  rw [step_busy hr (by simp [hp]), inProgress, exec_requestInstr, requestStep_openWait hp]

theorem step_writeWait {s : State} (hr : s.rst = false) (hp : s.phase = .writeWait) : step s = .next (writeDone s) := by
  rw [step_busy hr (by simp [hp]), inProgress, exec_requestInstr, requestStep_writeWait hp]

theorem step_readWait {s : State} (hr : s.rst = false) (hp : s.phase = .readWait) : step s = .next (readDone s) := by
  rw [step_busy hr (by simp [hp]), inProgress, exec_requestInstr, requestStep_readWait hp]

theorem step_parse {s : State} (hr : s.rst = false) (hp : s.phase = .parse) : step s = .next (parseDone s) := by
  rw [step_busy hr (by simp [hp]), inProgress, exec_requestInstr, requestStep_parse hp]

end Sys2Proof.Machine
end

section
/-! SUPPORT. What each reply to an outstanding call leaves (41_transaction_engine.md R103 to R105), and what a completion
with a Response leaves (R106). -/

namespace Sys2Proof.Machine

/-! ### A waiting reply is taken off its channel and worked on -/

theorem openDone_cons {s : State} {ready : Bool} {rest : List Bool} (hq : s.openReplies = ready :: rest) :
    openDone s = onOpenReply ready { s with openReplies := rest } := by
  simp [openDone, hq, popOpen]

theorem writeDone_cons {s : State} {r : WriteReply} {rest : List WriteReply} (hq : s.writeReplies = r :: rest) :
    writeDone s = onWriteReply r { s with writeReplies := rest } := by
  simp [writeDone, hq, popWrite]

theorem readDone_cons {s : State} {r : ReadReply} {rest : List ReadReply} (hq : s.readReplies = r :: rest) :
    readDone s = onReadReply r { s with readReplies := rest } := by
  simp [readDone, hq, popRead]

/-! ### The step on each reply -/

theorem onWriteReply_error (n : BitVec 4) (s : State) : onWriteReply (.error n) s = complete .transportError none s := rfl

theorem onWriteReply_short {n : Fin 10} (s : State) (hn : n.val < 9) :
    onWriteReply (.count n) s = complete .partialWrite none s :=
  if_pos hn

theorem onWriteReply_all {n : Fin 10} (s : State) (hn : ¬ n.val < 9) : onWriteReply (.count n) s = startRead 1 s :=
  if_neg hn

theorem onReadReply_retry (n : BitVec 4) (f : Frame) (s : State) (ha : s.attempt.toNat < 3) :
    onReadReply (.timeout n f) s = startRead (s.attempt + 1) s :=
  if_pos ha

theorem onReadReply_lastTimeout (n : BitVec 4) (f : Frame) (s : State) (ha : ¬ s.attempt.toNat < 3) :
    onReadReply (.timeout n f) s = complete .readFailed none s :=
  if_neg ha

theorem onReadReply_error (n : BitVec 4) (f : Frame) (s : State) :
    onReadReply (.error n f) s = complete .transportError none s :=
  rfl

theorem onReadReply_short {n : Fin 10} (f : Frame) (s : State) (hn : n.val < 9) :
    onReadReply (.data n f) s = complete .incompleteResponse none s :=
  if_pos hn

theorem onReadReply_all {n : Fin 10} (f : Frame) (s : State) (hn : ¬ n.val < 9) :
    onReadReply (.data n f) s = storeReply f s :=
  if_neg hn

/-! ### The judgement on nine reply bytes -/

theorem judge_of_error {len : Fin 10} {f : Frame} {e : ParseError} (s : State) (h : parse len f = .error e) :
    judge len f s = complete (parseStatus e) none s := by
  simp [judge, h]

theorem judge_of_ok {len : Fin 10} {f : Frame} {r : Response} (s : State) (h : parse len f = .ok r) :
    judge len f s = complete .ok (some r) s := by
  simp [judge, h]

/-! ### Completions -/

theorem rspValidAfter_ok (op : Op) : rspValidAfter .ok op = isSensor op := rfl

theorem ppmValidAfter_ok (op : Op) : ppmValidAfter .ok op = (op == .readCo2) := rfl

/-- A sensor command that ends `OK` with a Response leaves what `endedWith` writes out. -/
theorem complete_some_eq_endedWith (r : Response) {s : State} (h : isSensor s.cmdOp = true) :
    complete .ok (some r) s = endedWith (s.cmdOp == .readCo2) r s := by
  have hrecord : recordOf (finish .ok (some r) s) = ⟨.ok, s.attempt, true, s.cmdOp == .readCo2, some r⟩ := by
    simp [recordOf_finish, rspValidAfter_ok, ppmValidAfter_ok, h]
  rw [complete, emit, hrecord]
  simp [finish, endedWith, rspValidAfter_ok, ppmValidAfter_ok, h]

/-- No error of the parser is `OK`. -/
theorem parseStatus_ne_ok (e : ParseError) : parseStatus e ≠ .ok := by cases e <;> decide

theorem judge_badHeader {f : Frame} (s : State) (h0 : f.b0 ≠ header) : judge 9 f s = endedWithout .invalidHeader s := by
  rw [judge_of_error s (parse_of_badHeader h0), complete_none_eq_endedWithout (.inl (parseStatus_ne_ok _)), parseStatus]

theorem judge_badChecksum {f : Frame} (s : State) (h0 : f.b0 = header) (h8 : checksum f.toBody ≠ f.b8) :
    judge 9 f s = endedWithout .checksumMismatch s := by
  rw [judge_of_error s (parse_of_badChecksum h0 h8), complete_none_eq_endedWithout (.inl (parseStatus_ne_ok _)),
    parseStatus]

theorem judge_sealed {f : Frame} {s : State} (hsensor : isSensor s.cmdOp = true) (h0 : f.b0 = header)
    (h8 : checksum f.toBody = f.b8) : judge 9 f s = endedWith (s.cmdOp == .readCo2) (responseOf f) s := by
  rw [judge_of_ok s (parse_of_sealed h0 h8), complete_some_eq_endedWith _ hsensor]

/-! ### The request in `DISPATCH` and the frame it builds -/

/-- A sensor command that builds no frame has a bad argument (40_frame_codec.md R88). -/
theorem sensorDispatch_of_no_build {n : Nat} {op : Op} {arg : BitVec n} {s : State} (h : build s.cfg op arg = none) :
    sensorDispatch op arg s = endedWithout .invalidArgument s := by
  rw [← complete_none_eq_endedWithout (.inl (by decide))]
  simp [sensorDispatch, h]

/-- Without an open connection the frame built goes nowhere. -/
theorem sensorDispatch_of_build_notConnected {n : Nat} {op : Op} {arg : BitVec n} {f : Frame} {s : State}
    (h : build s.cfg op arg = some f) (hc : s.conn ≠ .opened) :
    sensorDispatch op arg s = endedWithout .notConnected s := by
  rw [← complete_none_eq_endedWithout (.inl (by decide))]
  simp [sensorDispatch, h, hc]

/-- The `DISPATCH` step of a sensor command reads its operation and its argument through the builder only. -/
theorem sensorDispatch_of_build_eq {n m : Nat} {op op' : Op} {a : BitVec n} {b : BitVec m} {s : State}
    (h : build s.cfg op a = build s.cfg op' b) : sensorDispatch op a s = sensorDispatch op' b s := by
  simp only [sensorDispatch, h]

theorem exec_sensor_dispatch {op : Op} {s : State} (hsensor : isSensor op = true) (hp : s.phase = .dispatch) (arg : Arg) :
    exec (requestInstr op arg) s = .next (sensorDispatch op (argBits s.cfg.argW arg) s) := by
  rw [exec_requestInstr, requestStep_dispatch hp, dispatchOf_sensor hsensor]

/-- An open block hands the frame of a sensor command over. -/
theorem exec_sensor_opened {op : Op} {arg : Arg} {f : Frame} {s : State} (hsensor : isSensor op = true)
    (hp : s.phase = .dispatch) (hc : s.conn = .opened) (hbuild : buildRequest s.cfg op arg = some f) :
    exec (requestInstr op arg) s = .next (handedOver f s) := by
  rw [exec_sensor_dispatch hsensor hp, sensorDispatch_opened hc hbuild]

/-- A command frame that meets the constraint of its row is the frame that its own step builds. -/
theorem exec_command_of_rowConstraint {cfg : Config} {argW : Nat} {i : Instr} {f : Frame}
    (henc : encode argW i = .cmd9 f) (hrow : rowConstraint cfg i = true) :
    ∃ (op : Op) (n : Nat) (arg : BitVec n), build cfg op arg = some f ∧
      ∀ s, exec i s = .next (commandFrameStep op arg s) := by
  have row {n : Nat} {op : Op} {arg : BitVec n} {opcode chk : Byte} (hop : wireOpcode op = some opcode)
      (hok : argOk cfg op arg = true) (hchk : chk = commandChk opcode (dataBytes op arg).1 (dataBytes op arg).2) :
      build cfg op arg = some { toBody := commandBody opcode (dataBytes op arg).1 (dataBytes op arg).2, b8 := chk } :=
    (build_eq_some_iff cfg op arg _).mpr ⟨opcode, hop, hok, by rw [hchk]; rfl⟩
  cases i with
  | frameReadCo2 chk =>
    cases henc
    exact ⟨.readCo2, 16, 0, row rfl rfl (eq_of_beq hrow), fun _ => rfl⟩
  | frameZeroCal chk =>
    cases henc
    exact ⟨.zeroCal, 16, 0, row rfl rfl (eq_of_beq hrow), fun _ => rfl⟩
  | frameSpanCal ppm chk =>
    cases henc
    exact ⟨.spanCal, 16, ppm, row rfl ((argOk_spanCal_iff cfg ppm).mpr ⟨ppm, rfl⟩) (eq_of_beq hrow), fun _ => rfl⟩
  | frameSetAbc enabled chk =>
    cases henc
    cases enabled with
    | true => exact ⟨.setAbc, 1, BitVec.ofBool true, row rfl rfl (eq_of_beq hrow), fun _ => rfl⟩
    | false => exact ⟨.setAbc, 1, BitVec.ofBool false, row rfl rfl (eq_of_beq hrow), fun _ => rfl⟩
  | frameSetRange range chk =>
    cases henc
    obtain ⟨hmem, hchk⟩ := Bool.and_eq_true_iff.mp hrow
    exact ⟨.setRange, 16, range, row rfl ((argOk_setRange_word cfg range).mpr (by simpa using hmem)) (eq_of_beq hchk),
      fun _ => rfl⟩
  | connect | close | readCo2 | zeroCal | spanCal | setAbc | setRange | reserved7 | frameResponse => cases henc

end Sys2Proof.Machine
end

section
/-! PROOF. The obligations about the steps of the transaction engine (41_transaction_engine.md): what a step runs, the
accept, the dispatch, the replies, the completions and the frame rows. -/

namespace Sys2Proof.Machine

/-- Settles O6, phase by phase: the word decoded is the one fetched. -/
theorem stepRunsDecodedInstruction : Obligations.StepRunsDecodedInstruction := by
  intro s hr
  refine ⟨fun w rest i hp hq hd => ?idle, fun hp => ?dispatch, fun hp hq => ?openWait, fun i hp hq hd => ?writeWait,
    fun f rest i hp hq hd => ?readWait, fun i hp hlen hd => ?parse⟩
  case idle =>
    obtain ⟨-, rfl⟩ := of_ite_ok_eq_ok hd
    exact step_of_fetch hr (fetch_idle hp hq)
  case dispatch => exact step_busy hr (by simp [hp])
  case openWait => exact step_busy hr (by simp [hp])
  case writeWait =>
    have hframe : frameOr (decodeCommand s.txbuf) s = i := by rw [show decodeCommand s.txbuf = .ok i from hd, frameOr]
    obtain ⟨r, rest, hreplies⟩ := List.exists_cons_of_ne_nil hq
    exact step_of_fetch hr (by simp [fetch_writeWait hp, hreplies, hframe])
  case readWait =>
    have hframe : frameOr (decodeReply f) s = i := by rw [show decodeReply f = .ok i from hd, frameOr]
    exact step_of_fetch hr (by simp [fetch_readWait hp, hq, replyInstr, hframe])
  case parse =>
    have hframe : frameOr (decodeReply s.rxbuf) s = i := by rw [show decodeReply s.rxbuf = .ok i from hd, frameOr]
    exact step_of_fetch hr (by rw [fetch_parse hp, if_pos hlen, hframe])

/-- Settles O7. Where no step is enabled the request in progress waits, so this holds of a stuck block too. -/
theorem stepRunsRequestInProgress : Obligations.StepRunsRequestInProgress := fun _ hr hp _ => step_busy hr hp

/-- Settles O29: the word on the port decodes to its request, and no move of a busy block touches the port, `CMD_OP` or
`CMD_ARG`. -/
theorem acceptLatchesRequest : Obligations.AcceptLatchesRequest := by
  refine ⟨fun op arg rest s hr hp harg hq => ⟨?ready, ?runs, ?latched⟩, fun s t hr hp h => ⟨?notReady, ?kept⟩⟩
  case ready => simp [reqReady, hp]
  case runs => rw [step_of_fetch hr (fetch_idle hp hq), decodeRequest_requestWord op harg]
  case latched =>
    rw [exec_requestInstr, requestStep_idle hp, accept, toNat_argBits, Nat.mod_eq_of_lt harg, hq, List.tail_cons]
  case notReady => simp [reqReady, hp]
  case kept =>
    cases step_moves h with
    | reset hrst => simp [hr] at hrst
    | accept w rest _ hidle => exact absurd hidle hp
    | _ => exact ⟨rfl, rfl, rfl⟩

/-- Settles O33: each command hands over the frame that the builder builds for it. -/
theorem sensorCommandSendsItsFrame : Obligations.SensorCommandSendsItsFrame := by
  intro arg s hp hc harg
  have hvalue : (argBits s.cfg.argW arg).toNat = arg := (toNat_argBits _ _).trans (Nat.mod_eq_of_lt harg)
  have hbit : (argBits s.cfg.argW arg).getLsbD 0 = decide (arg % 2 = 1) := by
    rw [← BitVec.testBit_toNat, hvalue, Nat.testBit_zero]
  refine ⟨exec_sensor_opened (op := .readCo2) rfl hp hc (build_readCo2 _ _),
    exec_sensor_opened (op := .zeroCal) rfl hp hc (build_zeroCal _ _),
    fun hi lo h => exec_sensor_opened (op := .spanCal) rfl hp hc (build_spanCal _ (hvalue.trans h)),
    fun hodd => exec_sensor_opened (op := .setAbc) rfl hp hc ?odd,
    fun heven => exec_sensor_opened (op := .setAbc) rfl hp hc ?even,
    fun r hmem hr hi lo h => exec_sensor_opened (op := .setRange) rfl hp hc
      (build_setRange hmem (hr.trans hvalue.symm) (hvalue.trans h))⟩
  case odd => rw [buildRequest, build_setAbc, hbit, if_pos (by simpa using hodd)]
  case even => rw [buildRequest, build_setAbc, hbit, if_neg (by simp [heven])]

/-- Settles O36, reply by reply. -/
theorem writeDoneStep : Obligations.WriteDoneStep := by
  intro op arg s rest hp
  rw [exec_requestInstr, requestStep_writeWait hp]
  refine ⟨fun n hq => ?error, fun n hq hn => ?short, fun n hq hn => ?all⟩
  case error => rw [writeDone_cons hq, onWriteReply_error, complete_none_eq_endedWithout (.inl (by decide))]
  case short => rw [writeDone_cons hq, onWriteReply_short _ hn, complete_none_eq_endedWithout (.inl (by decide))]
  case all => rw [writeDone_cons hq, onWriteReply_all _ (by omega)]; rfl

/-- Settles O37, reply by reply. -/
theorem readDoneStep : Obligations.ReadDoneStep := by
  intro op arg s rest hp
  rw [exec_requestInstr, requestStep_readWait hp]
  refine ⟨fun n f hq ha => ?retry, fun n f hq ha => ?lastTimeout, fun n f hq => ?error, fun n f hq hn => ?short,
    fun n f hq hn => ?all⟩
  case retry => exact congrArg _ ((readDone_cons hq).trans (onReadReply_retry n f _ ha))
  case lastTimeout =>
    rw [readDone_cons hq, onReadReply_lastTimeout n f { s with readReplies := rest } (Nat.not_lt.mpr ha.ge),
      complete_none_eq_endedWithout (.inl (by decide))]
  case error => rw [readDone_cons hq, onReadReply_error, complete_none_eq_endedWithout (.inl (by decide))]
  case short => rw [readDone_cons hq, onReadReply_short f _ hn, complete_none_eq_endedWithout (.inl (by decide))]
  case all => rw [readDone_cons hq, onReadReply_all f _ (by omega)]; rfl

/-- Settles O38, from what the judgement on nine bytes comes to. -/
theorem parseStep : Obligations.ParseStep := by
  intro op arg s hsensor hp hlen
  rw [exec_requestInstr, requestStep_parse hp, parseDone, hlen]
  refine ⟨fun h0 => ?header, fun h0 h8 => ?checksum, fun h0 h8 => ?accepted⟩
  case header => rw [judge_badHeader s h0]
  case checksum => rw [judge_badChecksum s h0 h8]
  case accepted => rw [judge_sealed hsensor h0 h8]; rfl

/-- Settles O39. -/
theorem completeWritesResults : Obligations.CompleteWritesResults := fun _ _ =>
  ⟨complete_none_eq_endedWithout, fun r hsensor => complete_some_eq_endedWith r hsensor⟩

/-- Settles O41: the frame in flight and the request both run `WRITE_DONE`. -/
theorem commandFrameInFlight : Obligations.CommandFrameInFlight := by
  intro i f op arg s henc hp
  have hframe : exec i s = .next (writeDone s) := exec_commandFrame_writeWait (decodeCommand_of_encode henc) hp
  exact ⟨by rw [hframe, exec_requestInstr, requestStep_writeWait hp], writeDone s, hframe⟩

/-- Settles O42: the request and the frame it builds hand over the same frame. -/
theorem requestRunsTheFrameItBuilds : Obligations.RequestRunsTheFrameItBuilds := by
  intro op arg s hsensor hp
  rw [exec_sensor_dispatch hsensor hp]
  refine ⟨fun f hbuild => ⟨?sameStep, fun hc => ?notConnected⟩, fun hnone => ?invalid⟩
  case sameStep =>
    obtain ⟨i, hrow, henc⟩ := build_encodes s.cfg.argW hbuild
    obtain ⟨op', n, arg', hbuild', hexec⟩ := exec_command_of_rowConstraint henc hrow
    refine ⟨i, decodeCommand_of_encode henc, ?_⟩
    rw [hexec, commandFrameStep_dispatch op' arg' hp, sensorDispatch_of_build_eq (hbuild.trans hbuild'.symm)]
  case notConnected => rw [sensorDispatch_of_build_notConnected hbuild hc]
  case invalid => rw [sensorDispatch_of_no_build hnone]

/-- Settles O43: the reply frame runs the step of the reply on its own nine bytes. -/
theorem replyFrameIsTakenAndJudged : Obligations.ReplyFrameIsTakenAndJudged := by
  rintro echo hi lo r0 r1 r2 r3 chk s f rfl
  have hd : decodeReply (bytes9 0xFF echo hi lo r0 r1 r2 r3 chk) =
      .ok (.frameResponse echo (hi ++ lo) (r0 ++ r1 ++ r2 ++ r3) chk) := decodeReply_of_header rfl
  rw [exec_replyFrame hd]
  refine ⟨fun hp => ?taken, fun hp h8 => ?mismatch, fun hp h8 hsensor => ?accepted⟩
  case taken => rw [replyFrameStep, hp]; rfl
  case mismatch => rw [replyFrameStep, hp]; exact congrArg _ (judge_badChecksum s rfl h8)
  case accepted => rw [replyFrameStep, hp]; exact congrArg _ (judge_sealed hsensor rfl h8)

/-- Settles O45: the moves that set `CONN` or issue a `TClose` are those of `CONNECT` and `CLOSE`. -/
theorem sensorCommandKeepsConn : Obligations.SensorCommandKeepsConn := by
  intro s t hs hr hp hsensor h
  cases step_moves h with
  | reset hrst => simp [hr] at hrst
  | close _ _ hop => rw [hop] at hsensor; cases hsensor
  | opened rest _ hwait =>
    obtain ⟨-, ⟨hop, -⟩, -⟩ := (blockInv_openWait_iff hwait).mp hs
    rw [hop] at hsensor
    cases hsensor
  | startOpen | transmit | written | retry => exact ⟨rfl, by simp⟩
  | _ => exact ⟨rfl, rfl⟩

/-- Settles O48: a move either completes, from a phase that is not `IDLE`, or goes to another phase and emits nothing. -/
theorem returnToIdleIsOneCompletion : Obligations.ReturnToIdleIsOneCompletion := by
  intro s t hr h
  cases step_moves h with
  | reset hrst => simp [hr] at hrst
  | waitIdle _ hp => exact .inr ⟨rfl, fun _ => ⟨hp, rfl⟩⟩
  | waitStuck => exact .inr ⟨rfl, fun hp => ⟨hp, rfl⟩⟩
  | accept | startOpen | transmit | written | retry | received => exact .inr ⟨rfl, fun hp => by simp at hp⟩
  | connected _ hp | connectRefused _ hp | close _ hp | closedAlready _ hp | reserved _ hp | badArgument _ hp
  | notConnected _ _ hp | opened _ _ hp | openFailed _ _ hp | writeError _ _ _ hp | writeShort _ _ _ hp
  | readFailed _ _ _ _ hp | readError _ _ _ _ hp | readShort _ _ _ _ hp | parsed _ _ hp | parseFailed _ _ hp =>
    exact .inl ⟨by simp [hp], rfl, rfl, rfl⟩

end Sys2Proof.Machine
end

section
/-! SUPPORT. What the course of a block depends on (41_transaction_engine.md R109): blocks that agree on the connection,
the inputs and, while a request is in progress, on that request, go on alike, whatever else their registers hold. -/

namespace Sys2Proof.Machine

/-! ### Two blocks alike -/

/-- Since they stood in `a₀` and `b₀`, two blocks have added the same completions and the same calls. -/
def SameOutputs (a₀ b₀ a b : State) : Prop :=
  ∃ cs ks, a.completions = a₀.completions ++ cs ∧ b.completions = b₀.completions ++ cs ∧
    a.calls = a₀.calls ++ ks ∧ b.calls = b₀.calls ++ ks

/-- Two blocks with `RST` low that agree on the parameters, the connection and the inputs, and have put out the same since
`a₀` and `b₀`. -/
structure SameSetting (a₀ b₀ a b : State) : Prop where
  rst_left : a.rst = false
  rst_right : b.rst = false
  cfg : a.cfg = b.cfg
  conn : a.conn = b.conn
  requests : a.requests = b.requests
  openReplies : a.openReplies = b.openReplies
  writeReplies : a.writeReplies = b.writeReplies
  readReplies : a.readReplies = b.readReplies
  outputs : SameOutputs a₀ b₀ a b

/-- They also agree on the request in progress and its attempt number. -/
structure SameRequest (a₀ b₀ a b : State) : Prop extends SameSetting a₀ b₀ a b where
  cmdOp : a.cmdOp = b.cmdOp
  cmdArg : a.cmdArg = b.cmdArg
  attempt : a.attempt = b.attempt

/-- What two blocks in the same phase must agree on to go on alike: in `IDLE` nothing of the past, in `PARSE` also the
reply to judge. In `OPEN_WAIT` the request is `CONNECT` (10_state.md R24 (f)), which reports no Response. -/
def SameInPhase (a₀ b₀ a b : State) : Prop :=
  match a.phase with
  | .idle => SameSetting a₀ b₀ a b
  | .dispatch | .writeWait | .readWait => SameRequest a₀ b₀ a b
  | .openWait => SameRequest a₀ b₀ a b ∧ isSensor a.cmdOp = false
  | .parse => SameRequest a₀ b₀ a b ∧ a.rxlen = b.rxlen ∧ a.rxbuf = b.rxbuf

/-- Two blocks that go on alike. -/
def SameCourse (a₀ b₀ a b : State) : Prop := a.phase = b.phase ∧ SameInPhase a₀ b₀ a b

variable {a₀ b₀ a b : State}

/-! ### What is put out alike -/

theorem SameOutputs.start (a b : State) : SameOutputs a b a b :=
  ⟨[], [], (List.append_nil _).symm, (List.append_nil _).symm, (List.append_nil _).symm, (List.append_nil _).symm⟩

theorem SameOutputs.completion (h : SameOutputs a₀ b₀ a b) {a' b' : State} (c : Completion)
    (ha : a'.completions = a.completions ++ [c]) (hb : b'.completions = b.completions ++ [c])
    (hka : a'.calls = a.calls) (hkb : b'.calls = b.calls) : SameOutputs a₀ b₀ a' b' := by
  obtain ⟨cs, ks, hca, hcb, hcalla, hcallb⟩ := h
  exact ⟨cs ++ [c], ks, by rw [ha, hca, List.append_assoc], by rw [hb, hcb, List.append_assoc], hka.trans hcalla,
    hkb.trans hcallb⟩

theorem SameOutputs.call (h : SameOutputs a₀ b₀ a b) {a' b' : State} (c : Call)
    (ha : a'.completions = a.completions) (hb : b'.completions = b.completions)
    (hka : a'.calls = a.calls ++ [c]) (hkb : b'.calls = b.calls ++ [c]) : SameOutputs a₀ b₀ a' b' := by
  obtain ⟨cs, ks, hca, hcb, hcalla, hcallb⟩ := h
  exact ⟨cs, ks ++ [c], ha.trans hca, hb.trans hcb, by rw [hka, hcalla, List.append_assoc],
    by rw [hkb, hcallb, List.append_assoc]⟩

/-! ### Taking a reply, and setting the connection -/

theorem SameRequest.withConn (h : SameRequest a₀ b₀ a b) (c : Conn) :
    SameRequest a₀ b₀ { a with conn := c } { b with conn := c } :=
  { h with conn := rfl }

theorem SameRequest.withOpenReplies (h : SameRequest a₀ b₀ a b) (rest : List Bool) :
    SameRequest a₀ b₀ { a with openReplies := rest } { b with openReplies := rest } :=
  { h with openReplies := rfl }

theorem SameRequest.withWriteReplies (h : SameRequest a₀ b₀ a b) (rest : List WriteReply) :
    SameRequest a₀ b₀ { a with writeReplies := rest } { b with writeReplies := rest } :=
  { h with writeReplies := rfl }

theorem SameRequest.withReadReplies (h : SameRequest a₀ b₀ a b) (rest : List ReadReply) :
    SameRequest a₀ b₀ { a with readReplies := rest } { b with readReplies := rest } :=
  { h with readReplies := rfl }

theorem SameRequest.withClosing (h : SameRequest a₀ b₀ a b) :
    SameRequest a₀ b₀ { a with conn := .closed, calls := a.calls ++ [.tClose] }
      { b with conn := .closed, calls := b.calls ++ [.tClose] } :=
  { h with conn := rfl, outputs := h.outputs.call .tClose rfl rfl rfl rfl }

/-! ### Each operation keeps two blocks alike -/

/-- The record of a completion has nothing of the past in it where a Response that is reported has been given. -/
theorem recordOf_finish_congr {st : Status} {r : Option Response} (hop : a.cmdOp = b.cmdOp)
    (hattempt : a.attempt = b.attempt) (hrsp : rspValidAfter st a.cmdOp = true → ∃ x, r = some x) :
    recordOf (finish st r a) = recordOf (finish st r b) := by
  rw [recordOf_finish, recordOf_finish, ← hop, ← hattempt]
  cases hv : rspValidAfter st a.cmdOp with
  | false => simp
  | true =>
    obtain ⟨rfl, -⟩ := (rspValidAfter_eq_true_iff st a.cmdOp).mp hv
    obtain ⟨x, rfl⟩ := hrsp hv
    simp

theorem SameRequest.complete {st : Status} {r : Option Response} (h : SameRequest a₀ b₀ a b)
    (hrsp : rspValidAfter st a.cmdOp = true → ∃ x, r = some x) :
    SameCourse a₀ b₀ (complete st r a) (complete st r b) :=
  have houtputs : SameOutputs a₀ b₀ (Machine.complete st r a) (Machine.complete st r b) :=
    h.outputs.completion (recordOf (finish st r a)) rfl
      (by rw [complete_completions, recordOf_finish_congr h.cmdOp h.attempt hrsp]) rfl rfl
  have hsetting : SameSetting a₀ b₀ (Machine.complete st r a) (Machine.complete st r b) :=
    { h with outputs := houtputs }
  ⟨rfl, hsetting⟩

/-- An error completion reports no Response. -/
theorem SameRequest.completeError {st : Status} (h : SameRequest a₀ b₀ a b) (hst : st ≠ .ok) :
    SameCourse a₀ b₀ (Machine.complete st none a) (Machine.complete st none b) :=
  h.complete fun hv => absurd ((rspValidAfter_eq_true_iff _ _).mp hv).1 hst

/-- A request that is no sensor command reports no Response. -/
theorem SameRequest.completeOk (h : SameRequest a₀ b₀ a b) (hop : isSensor a.cmdOp = false) :
    SameCourse a₀ b₀ (Machine.complete .ok none a) (Machine.complete .ok none b) :=
  h.complete fun hv => absurd hv (by simp [rspValidAfter_ok, hop])

theorem SameSetting.accept (h : SameSetting a₀ b₀ a b) (op : Op) (arg : Arg) :
    SameCourse a₀ b₀ (accept op arg a) (accept op arg b) :=
  have hrequest : SameRequest a₀ b₀ (Machine.accept op arg a) (Machine.accept op arg b) :=
    { h with requests := congrArg List.tail h.requests, cmdOp := rfl, attempt := rfl
             cmdArg := by rw [accept_cmdArg, accept_cmdArg, h.cfg] }
  ⟨rfl, hrequest⟩

theorem SameRequest.startOpen (h : SameRequest a₀ b₀ a b) (hop : isSensor a.cmdOp = false) :
    SameCourse a₀ b₀ (startOpen a) (startOpen b) :=
  have hrequest : SameRequest a₀ b₀ (Machine.startOpen a) (Machine.startOpen b) :=
    { h with outputs := h.outputs.call .tOpen rfl rfl rfl rfl }
  ⟨rfl, hrequest, hop⟩

theorem SameRequest.transmit (h : SameRequest a₀ b₀ a b) (f : Frame) :
    SameCourse a₀ b₀ (transmit f a) (transmit f b) :=
  have hrequest : SameRequest a₀ b₀ (Machine.transmit f a) (Machine.transmit f b) :=
    { h with outputs := h.outputs.call (.tWrite f) rfl rfl rfl rfl }
  ⟨rfl, hrequest⟩

theorem SameRequest.startRead (h : SameRequest a₀ b₀ a b) (n : BitVec 2) :
    SameCourse a₀ b₀ (startRead n a) (startRead n b) :=
  have hrequest : SameRequest a₀ b₀ (Machine.startRead n a) (Machine.startRead n b) :=
    { h with attempt := rfl, outputs := h.outputs.call .tRead rfl rfl rfl rfl }
  ⟨rfl, hrequest⟩

theorem SameRequest.storeReply (h : SameRequest a₀ b₀ a b) (f : Frame) :
    SameCourse a₀ b₀ (storeReply f a) (storeReply f b) :=
  have hrequest : SameRequest a₀ b₀ (Machine.storeReply f a) (Machine.storeReply f b) := { h with }
  ⟨rfl, hrequest, rfl, rfl⟩

/-! ### Each phase keeps two blocks alike -/

theorem SameRequest.connectDispatch (h : SameRequest a₀ b₀ a b) (hop : isSensor a.cmdOp = false) :
    SameCourse a₀ b₀ (connectDispatch a) (connectDispatch b) := by
  unfold Machine.connectDispatch
  rw [← h.conn, ← h.cfg]
  cases a.conn with
  | unopened => exact h.startOpen hop
  | opened => exact h.completeOk hop
  | closed =>
    cases a.cfg.reopenAllowed with
    | true => exact h.startOpen hop
    | false => exact h.completeError (by decide)

theorem SameRequest.closeDispatch (h : SameRequest a₀ b₀ a b) (hop : isSensor a.cmdOp = false) :
    SameCourse a₀ b₀ (closeDispatch a) (closeDispatch b) := by
  unfold Machine.closeDispatch
  rw [← h.conn]
  cases a.conn with
  | opened => exact h.withClosing.completeOk hop
  | unopened | closed => exact h.completeOk hop

theorem SameRequest.sensorDispatch {n : Nat} (h : SameRequest a₀ b₀ a b) (op : Op) (arg : BitVec n) :
    SameCourse a₀ b₀ (sensorDispatch op arg a) (sensorDispatch op arg b) := by
  unfold Machine.sensorDispatch
  rw [← h.cfg, ← h.conn]
  cases build a.cfg op arg with
  | none => exact h.completeError (by decide)
  | some f =>
    by_cases hc : a.conn = .opened
    · simp only [hc, if_true]
      exact h.transmit f
    · simp only [hc, if_false]
      exact h.completeError (by decide)

theorem SameRequest.dispatchOf (h : SameRequest a₀ b₀ a b) :
    SameCourse a₀ b₀ (dispatchOf a.cmdOp a.cmdArg a) (dispatchOf b.cmdOp b.cmdArg b) := by
  rw [← h.cmdOp, ← h.cmdArg]
  cases hs : isSensor a.cmdOp with
  | true =>
    rw [dispatchOf_sensor hs, dispatchOf_sensor hs, ← h.cfg]
    exact h.sensorDispatch _ _
  | false =>
    cases hop : a.cmdOp with
    | connect => exact h.connectDispatch hs
    | close => exact h.closeDispatch hs
    | reserved7 => exact h.completeError (by decide)
    | readCo2 | zeroCal | spanCal | setAbc | setRange => rw [hop] at hs; cases hs

theorem SameRequest.onOpenReply (h : SameRequest a₀ b₀ a b) (hop : isSensor a.cmdOp = false) (ready : Bool) :
    SameCourse a₀ b₀ (onOpenReply ready a) (onOpenReply ready b) := by
  cases ready with
  | true => exact (h.withConn .opened).completeOk hop
  | false => exact h.completeError (by decide)

theorem SameRequest.onWriteReply (h : SameRequest a₀ b₀ a b) (r : WriteReply) :
    SameCourse a₀ b₀ (onWriteReply r a) (onWriteReply r b) := by
  cases r with
  | error n => exact h.completeError (by decide)
  | count n =>
    by_cases hn : n.val < 9
    · rw [onWriteReply_short a hn, onWriteReply_short b hn]
      exact h.completeError (by decide)
    · rw [onWriteReply_all a hn, onWriteReply_all b hn]
      exact h.startRead 1

theorem SameRequest.onReadReply (h : SameRequest a₀ b₀ a b) (r : ReadReply) :
    SameCourse a₀ b₀ (onReadReply r a) (onReadReply r b) := by
  cases r with
  | timeout n f =>
    by_cases ha : a.attempt.toNat < 3
    · rw [onReadReply_retry n f a ha, onReadReply_retry n f b (h.attempt ▸ ha), ← h.attempt]
      exact h.startRead _
    · rw [onReadReply_lastTimeout n f a ha, onReadReply_lastTimeout n f b (h.attempt ▸ ha)]
      exact h.completeError (by decide)
  | error n f => exact h.completeError (by decide)
  | data n f =>
    by_cases hn : n.val < 9
    · rw [onReadReply_short f a hn, onReadReply_short f b hn]
      exact h.completeError (by decide)
    · rw [onReadReply_all f a hn, onReadReply_all f b hn]
      exact h.storeReply f

theorem SameRequest.judge (h : SameRequest a₀ b₀ a b) (len : Fin 10) (f : Frame) :
    SameCourse a₀ b₀ (judge len f a) (judge len f b) := by
  cases hparse : parse len f with
  | ok r =>
    rw [judge_of_ok a hparse, judge_of_ok b hparse]
    exact h.complete fun _ => ⟨r, rfl⟩
  | error e =>
    rw [judge_of_error a hparse, judge_of_error b hparse]
    exact h.completeError (parseStatus_ne_ok e)

/-! ### Each step and each run keeps two blocks alike -/

theorem SameCourse.setting (h : SameCourse a₀ b₀ a b) : SameSetting a₀ b₀ a b := by
  obtain ⟨-, hphase⟩ := h
  cases hp : a.phase <;> simp only [SameInPhase, hp] at hphase
  case idle => exact hphase
  case dispatch | writeWait | readWait => exact hphase.toSameSetting
  case openWait | parse =>
    obtain ⟨hrequest, -⟩ := hphase
    exact hrequest.toSameSetting

/-- Blocks alike step alike: the phase is the same, so is the input that it waits for, and so the same operation is run on
both. -/
theorem SameCourse.step (h : SameCourse a₀ b₀ a b) :
    ∃ t u, step a = .next t ∧ step b = .next u ∧ SameCourse a₀ b₀ t u := by
  obtain ⟨hra, hrb, hcfg, -, hreq, hopen, hwrite, hread, -⟩ := h.setting
  have ⟨hpb, hphase⟩ := h
  cases hp : a.phase <;> simp only [SameInPhase, hp] at hphase <;> rw [hp] at hpb
  case idle =>
    cases hq : a.requests with
    | nil => exact ⟨a, b, step_idle_nil hra hp hq, step_idle_nil hrb hpb.symm (hreq ▸ hq), h⟩
    | cons w rest =>
      refine ⟨_, _, step_idle_cons hra hp hq, step_idle_cons hrb hpb.symm (hreq ▸ hq), ?_⟩
      rw [← hcfg]
      exact hphase.accept _ _
  case dispatch => exact ⟨_, _, step_dispatch hra hp, step_dispatch hrb hpb.symm, hphase.dispatchOf⟩
  case openWait =>
    obtain ⟨hrequest, hop⟩ := hphase
    refine ⟨_, _, step_openWait hra hp, step_openWait hrb hpb.symm, ?_⟩
    cases hq : a.openReplies with
    | nil => rwa [openDone_nil hq, openDone_nil (hopen ▸ hq)]
    | cons ready rest =>
      rw [openDone_cons hq, openDone_cons (hopen ▸ hq)]
      exact (hrequest.withOpenReplies rest).onOpenReply hop ready
  case writeWait =>
    refine ⟨_, _, step_writeWait hra hp, step_writeWait hrb hpb.symm, ?_⟩
    cases hq : a.writeReplies with
    | nil => rwa [writeDone_nil hq, writeDone_nil (hwrite ▸ hq)]
    | cons r rest =>
      rw [writeDone_cons hq, writeDone_cons (hwrite ▸ hq)]
      exact (hphase.withWriteReplies rest).onWriteReply r
  case readWait =>
    refine ⟨_, _, step_readWait hra hp, step_readWait hrb hpb.symm, ?_⟩
    cases hq : a.readReplies with
    | nil => rwa [readDone_nil hq, readDone_nil (hread ▸ hq)]
    | cons r rest =>
      rw [readDone_cons hq, readDone_cons (hread ▸ hq)]
      exact (hphase.withReadReplies rest).onReadReply r
  case parse =>
    obtain ⟨hrequest, hlen, hbuf⟩ := hphase
    refine ⟨_, _, step_parse hra hp, step_parse hrb hpb.symm, ?_⟩
    rw [parseDone, parseDone, ← hlen, ← hbuf]
    exact hrequest.judge _ _

/-- Blocks alike run alike, for as many steps as one likes. -/
theorem SameCourse.run (h : SameCourse a₀ b₀ a b) (k : Nat) :
    ∃ t u, Host.Core.run Sys2Proof.core k a = .next t ∧ Host.Core.run Sys2Proof.core k b = .next u ∧
      SameCourse a₀ b₀ t u := by
  induction k generalizing a b with
  | zero => exact ⟨a, b, rfl, rfl, h⟩
  | succ k ih =>
    obtain ⟨a', b', ha, hb, h'⟩ := h.step
    rw [run_succ_of_next ha, run_succ_of_next hb]
    exact ih h'

end Sys2Proof.Machine
end

section
/-! PROOF. The obligation about the past of a block (41_transaction_engine.md R109). -/

namespace Sys2Proof.Machine

/-- Settles O57: idle blocks with the same connection and inputs are alike, and blocks alike run alike. -/
theorem historyDoesNotMatter : Obligations.HistoryDoesNotMatter := by
  intro a b hra hrb hpa hpb hcfg hconn hreq hopen hwrite hread k t u ht hu
  have hsetting : SameSetting a b a b := ⟨hra, hrb, hcfg, hconn, hreq, hopen, hwrite, hread, SameOutputs.start a b⟩
  have halike : SameCourse a b a b := ⟨hpa.trans hpb.symm, by simpa only [SameInPhase, hpa] using hsetting⟩
  obtain ⟨t', u', ht', hu', hrun⟩ := halike.run k
  obtain rfl : t' = t := by rw [ht'] at ht; exact Host.Outcome.next.inj ht
  obtain rfl : u' = u := by rw [hu'] at hu; exact Host.Outcome.next.inj hu
  have ⟨hphase, _⟩ := hrun
  exact ⟨hrun.setting.conn, hphase, hrun.setting.outputs⟩

end Sys2Proof.Machine
end

section
/-! SUPPORT. The runs of a request (41_transaction_engine.md R110, R112): call by call, the block comes to the result of the
big-step form. -/

namespace Sys2Proof.Machine

/-! ### What a result of the big-step form counts -/

/-- How often a frame was handed to the transport, among these calls. -/
def writeCount (cs : List Call) : Nat := cs.countP fun c => c matches .tWrite _

/-- How often the transport was asked to read, among these calls. -/
def readCount (cs : List Call) : Nat := cs.countP fun c => c == .tRead

theorem openCount_cons (c : Call) (cs : List Call) : openCount (c :: cs) = openCount [c] + openCount cs :=
  List.countP_append (l₁ := [c])

theorem writeCount_cons (c : Call) (cs : List Call) : writeCount (c :: cs) = writeCount [c] + writeCount cs :=
  List.countP_append (l₁ := [c])

theorem readCount_cons (c : Call) (cs : List Call) : readCount (c :: cs) = readCount [c] + readCount cs :=
  List.countP_append (l₁ := [c])

theorem resultOfFrame_calls (conn : Conn) (a : Nat) (f : Frame) : (resultOfFrame conn a f).calls = [.tRead] := by
  unfold resultOfFrame
  repeat' split
  all_goals rfl

theorem resultOfFrame_attempts (conn : Conn) (a : Nat) (f : Frame) : (resultOfFrame conn a f).attempts = a := by
  unfold resultOfFrame
  repeat' split
  all_goals rfl

/-- From attempt `a` on, the attempts reported are those before it and the reads since, three at most in all. -/
theorem resultOfReads_counts {conn : Conn} {a : Nat} {rs : List ReadReply} {r : Result} (ha : a ≤ 3)
    (h : resultOfReads conn a rs = some r) : r.calls.length + a ≤ 4 ∧ r.attempts + 1 = a + readCount r.calls := by
  induction rs generalizing a r with
  | nil => cases h
  | cons reply rest ih =>
    cases reply with
    | timeout n f =>
      rw [resultOfReads] at h
      split at h
      · obtain ⟨r', hr', rfl⟩ := Option.map_eq_some_iff.mp h
        obtain ⟨hlen, hatt⟩ := ih (by omega) hr'
        have hcount : readCount (afterCall .tRead r').calls = 1 + readCount r'.calls := readCount_cons _ _
        rw [hcount]
        simp only [afterCall, List.length_cons]
        omega
      · cases h
        exact ⟨by simp only [List.length_singleton]; omega, rfl⟩
    | error n f =>
      cases h
      exact ⟨by simp only [List.length_singleton]; omega, rfl⟩
    | data len f =>
      rw [resultOfReads] at h
      split at h
      · cases h
        exact ⟨by simp only [List.length_singleton]; omega, rfl⟩
      · cases h
        rw [resultOfFrame_calls, resultOfFrame_attempts]
        exact ⟨by simp only [List.length_singleton]; omega, rfl⟩

/-- A result makes at most four calls, and its attempts are its reads. -/
abbrev CallsFit (r : Result) : Prop := r.calls.length ≤ 4 ∧ r.attempts = readCount r.calls

theorem callsFit_nil (conn : Conn) (st : Status) : CallsFit ⟨conn, st, 0, none, []⟩ := ⟨Nat.zero_le 4, rfl⟩

theorem callsFit_singleton (conn : Conn) (st : Status) {c : Call} (hc : c ≠ .tRead) :
    CallsFit ⟨conn, st, 0, none, [c]⟩ :=
  ⟨Nat.le_add_left 1 3, by simp [readCount, hc]⟩

theorem resultOfWrite_callsFit {conn : Conn} {f : Frame} {ws : List WriteReply} {rs : List ReadReply} {r : Result}
    (h : resultOfWrite conn f ws rs = some r) : CallsFit r := by
  unfold resultOfWrite at h
  split at h
  · cases h
  · cases h; exact callsFit_singleton conn _ (by simp)
  · split at h
    · cases h; exact callsFit_singleton conn _ (by simp)
    · obtain ⟨r', hr', rfl⟩ := Option.map_eq_some_iff.mp h
      obtain ⟨hlen, hatt⟩ := resultOfReads_counts (by omega) hr'
      have hcount : readCount (afterCall (.tWrite f) r').calls = 0 + readCount r'.calls := readCount_cons _ _
      rw [CallsFit, hcount]
      simp only [afterCall, List.length_cons]
      omega

theorem resultOfOpen_callsFit {conn : Conn} {os : List Bool} {r : Result} (h : resultOfOpen conn os = some r) :
    CallsFit r := by
  unfold resultOfOpen at h
  split at h <;> cases h
  all_goals exact callsFit_singleton _ _ (by decide)

theorem resultOf_sensor {op : Op} (hsensor : isSensor op = true) (cfg : Config) (conn : Conn) (arg : Arg)
    (os : List Bool) (ws : List WriteReply) (rs : List ReadReply) :
    resultOf cfg conn op arg os ws rs = resultOfSensor cfg conn op arg ws rs := by
  cases op with
  | readCo2 | zeroCal | spanCal | setAbc | setRange => rfl
  | connect | close | reserved7 => cases hsensor

theorem resultOfSensor_callsFit {cfg : Config} {conn : Conn} {op : Op} {arg : Arg} {ws : List WriteReply}
    {rs : List ReadReply} {r : Result} (h : resultOfSensor cfg conn op arg ws rs = some r) : CallsFit r := by
  unfold resultOfSensor at h
  split at h
  · cases h; exact callsFit_nil _ _
  · split at h
    · exact resultOfWrite_callsFit h
    · cases h; exact callsFit_nil _ _

theorem resultOfConnect_callsFit {cfg : Config} {conn : Conn} {os : List Bool} {r : Result}
    (h : resultOfConnect cfg conn os = some r) : CallsFit r := by
  unfold resultOfConnect at h
  split at h
  · exact resultOfOpen_callsFit h
  · cases h; exact callsFit_nil _ _
  · split at h
    · exact resultOfOpen_callsFit h
    · cases h; exact callsFit_nil _ _

theorem resultOf_callsFit {cfg : Config} {conn : Conn} {op : Op} {arg : Arg} {os : List Bool} {ws : List WriteReply}
    {rs : List ReadReply} {r : Result} (h : resultOf cfg conn op arg os ws rs = some r) : CallsFit r := by
  cases op with
  | connect => exact resultOfConnect_callsFit h
  | close =>
    cases h
    cases conn with
    | opened => exact callsFit_singleton _ _ (by decide)
    | unopened | closed => exact callsFit_nil _ _
  | reserved7 => cases h; exact callsFit_nil _ _
  | readCo2 | zeroCal | spanCal | setAbc | setRange =>
    rw [resultOf_sensor rfl] at h
    exact resultOfSensor_callsFit h

/-! ### A call issued and answered, and the end of a request -/

/-- `u` is `s` with the call `c` issued and its reply, where it has one, taken. -/
structure Answered (c : Call) (s u : State) : Prop where
  rst : u.rst = s.rst
  cfg : u.cfg = s.cfg
  requests : u.requests = s.requests
  completions : u.completions = s.completions
  calls : u.calls = s.calls ++ [c]
  openReplies : u.openReplies = s.openReplies.drop (openCount [c])
  writeReplies : u.writeReplies = s.writeReplies.drop (writeCount [c])
  readReplies : u.readReplies = s.readReplies.drop (readCount [c])

/-- The request `op` has ended in `t` with the result `r`, all of whose calls were issued and answered since `s`. -/
structure Ended (op : Op) (r : Result) (s t : State) : Prop where
  phase : t.phase = .idle
  conn : t.conn = r.conn
  resValid : t.resValid = true
  rst : t.rst = s.rst
  cfg : t.cfg = s.cfg
  requests : t.requests = s.requests
  calls : t.calls = s.calls ++ r.calls
  completions : t.completions = s.completions ++ [completionOf op r]
  record : recordOf t = completionOf op r
  openReplies : t.openReplies = s.openReplies.drop (openCount r.calls)
  writeReplies : t.writeReplies = s.writeReplies.drop (writeCount r.calls)
  readReplies : t.readReplies = s.readReplies.drop (readCount r.calls)

/-- A completion ends the request with a result that makes no more calls. -/
theorem ended_complete {st : Status} {rsp : Option Response} {a : Nat} {s : State}
    (hrsp : rspValidAfter st s.cmdOp = rsp.isSome) (ha : s.attempt = BitVec.ofNat 2 a) :
    Ended s.cmdOp ⟨s.conn, st, a, rsp, []⟩ s (complete st rsp s) := by
  have hrecord : recordOf (finish st rsp s) = completionOf s.cmdOp ⟨s.conn, st, a, rsp, []⟩ := by
    rw [recordOf_finish, completionOf, ha]
    cases rsp with
    | none => simp [hrsp]
    | some r =>
      obtain ⟨rfl, -⟩ := (rspValidAfter_eq_true_iff st s.cmdOp).mp hrsp
      simp [hrsp]
  exact ⟨rfl, rfl, rfl, rfl, rfl, rfl, (List.append_nil _).symm, by rw [complete_completions, hrecord], hrecord, rfl, rfl,
    rfl⟩

theorem ended_error {st : Status} {a : Nat} {s : State} (hst : st ≠ .ok) (ha : s.attempt = BitVec.ofNat 2 a) :
    Ended s.cmdOp ⟨s.conn, st, a, none, []⟩ s (complete st none s) :=
  ended_complete (Bool.eq_false_iff.mpr fun hv => absurd ((rspValidAfter_eq_true_iff _ _).mp hv).1 hst) ha

/-- A request that is no sensor command ends `OK` without a Response. -/
theorem ended_ok {a : Nat} {s : State} (hop : isSensor s.cmdOp = false) (ha : s.attempt = BitVec.ofNat 2 a) :
    Ended s.cmdOp ⟨s.conn, .ok, a, none, []⟩ s (complete .ok none s) :=
  ended_complete ((rspValidAfter_ok _).trans hop) ha

/-- A call answered before the rest of the result. -/
theorem Ended.afterCall {c : Call} {op : Op} {r : Result} {s u t : State} (hcall : Answered c s u)
    (hend : Ended op r u t) : Ended op (afterCall c r) s t where
  phase := hend.phase
  conn := hend.conn
  resValid := hend.resValid
  rst := hend.rst.trans hcall.rst
  cfg := hend.cfg.trans hcall.cfg
  requests := hend.requests.trans hcall.requests
  calls := by rw [hend.calls, hcall.calls, List.append_assoc]; rfl
  completions := by rw [hend.completions, hcall.completions]; rfl
  record := hend.record
  openReplies := by rw [hend.openReplies, hcall.openReplies, List.drop_drop, ← openCount_cons]; rfl
  writeReplies := by rw [hend.writeReplies, hcall.writeReplies, List.drop_drop, ← writeCount_cons]; rfl
  readReplies := by rw [hend.readReplies, hcall.readReplies, List.drop_drop, ← readCount_cons]; rfl

/-- In `u` the block comes in 1 to `n` steps to the end of the request `op` with the result `r`, told since `s`. -/
def RunsTo (n : Nat) (op : Op) (r : Result) (s u : State) : Prop :=
  ∃ k t, 1 ≤ k ∧ k ≤ n ∧ Host.Core.run Sys2Proof.core k u = .next t ∧ Ended op r s t

theorem runsTo_of_step {n : Nat} {op : Op} {r : Result} {s u t : State} (hn : 1 ≤ n) (h : step u = .next t)
    (hend : Ended op r s t) : RunsTo n op r s u :=
  ⟨1, t, Nat.le_refl 1, hn, run_succ_of_next h 0, hend⟩

theorem RunsTo.step {n : Nat} {op : Op} {r : Result} {s u u' : State} (h : step u = .next u')
    (hrun : RunsTo n op r s u') : RunsTo (n + 1) op r s u := by
  obtain ⟨k, t, -, hk, hrun, hend⟩ := hrun
  exact ⟨k + 1, t, Nat.le_add_left 1 k, Nat.succ_le_succ hk, (run_succ_of_next h k).trans hrun, hend⟩

theorem RunsTo.mono {n m : Nat} {op : Op} {r : Result} {s u : State} (hrun : RunsTo n op r s u) (h : n ≤ m) :
    RunsTo m op r s u := by
  obtain ⟨k, t, hpos, hk, hrun, hend⟩ := hrun
  exact ⟨k, t, hpos, hk.trans h, hrun, hend⟩

theorem RunsTo.afterCall {n : Nat} {c : Call} {op : Op} {r : Result} {s s' u : State} (hcall : Answered c s s')
    (hrun : RunsTo n op r s' u) : RunsTo n op (afterCall c r) s u := by
  obtain ⟨k, t, hpos, hk, hrun, hend⟩ := hrun
  exact ⟨k, t, hpos, hk, hrun, hend.afterCall hcall⟩

/-! ### The reads -/

/-- Attempt `a` with its reply taken, before the block works on the reply. -/
abbrev readTaken (a : BitVec 2) (rest : List ReadReply) (s : State) : State :=
  { startRead a s with readReplies := rest }

theorem answered_read {s : State} {reply : ReadReply} {rest : List ReadReply} (a : BitVec 2)
    (hq : s.readReplies = reply :: rest) : Answered .tRead s (readTaken a rest s) :=
  ⟨rfl, rfl, rfl, rfl, rfl, rfl, rfl, by rw [hq]; rfl⟩

theorem Answered.storeReply {c : Call} {s u : State} (h : Answered c s u) (f : Frame) :
    Answered c s (storeReply f u) :=
  { h with }

theorem step_startRead {s : State} {reply : ReadReply} {rest : List ReadReply} (a : BitVec 2) (hr : s.rst = false)
    (hq : s.readReplies = reply :: rest) :
    step (startRead a s) = .next (onReadReply reply (readTaken a rest s)) := by
  rw [step_readWait (s := startRead a s) hr rfl, readDone_cons (s := startRead a s) hq]

/-- The judgement on nine reply bytes is the last of the big-step form's `read(a)`. -/
theorem ended_judge {a : Nat} {s : State} (f : Frame) (hsensor : isSensor s.cmdOp = true)
    (ha : s.attempt = BitVec.ofNat 2 a) :
    ∃ r, resultOfFrame s.conn a f = afterCall .tRead r ∧ Ended s.cmdOp r s (judge 9 f s) := by
  unfold resultOfFrame
  by_cases h0 : f.b0 = header
  · rw [if_neg (not_not.mpr h0)]
    by_cases h8 : checksum f.toBody = f.b8
    · rw [if_neg (not_not.mpr h8), judge_of_ok s (parse_of_sealed h0 h8)]
      exact ⟨_, rfl, ended_complete ((rspValidAfter_ok _).trans hsensor) ha⟩
    · rw [if_pos h8, judge_of_error s (parse_of_badChecksum h0 h8)]
      exact ⟨_, rfl, ended_error (by decide) ha⟩
  · rw [if_pos h0, judge_of_error s (parse_of_badHeader h0)]
    exact ⟨_, rfl, ended_error (by decide) ha⟩

/-- The retry loop: from attempt `a` on there are at most `3 - a` further reads, and then the end or the judgement. -/
theorem runsTo_reads {a : Nat} {rs : List ReadReply} {r : Result} {s : State} (hr : s.rst = false)
    (hsensor : isSensor s.cmdOp = true) (ha : a ≤ 3) (hq : s.readReplies = rs)
    (h : resultOfReads s.conn a rs = some r) :
    RunsTo (5 - a) s.cmdOp r s (startRead (BitVec.ofNat 2 a) s) := by
  have hvalue : (BitVec.ofNat 2 a).toNat = a := Nat.mod_eq_of_lt (by omega)
  induction rs generalizing a r s with
  | nil => cases h
  | cons reply rest ih =>
    have hcall := answered_read (BitVec.ofNat 2 a) hq
    have hstep := step_startRead (BitVec.ofNat 2 a) hr hq
    cases reply with
    | timeout n f =>
      rw [resultOfReads] at h
      split at h
      case isTrue hlt =>
        obtain ⟨r', hr', rfl⟩ := Option.map_eq_some_iff.mp h
        rw [onReadReply_retry n f (readTaken _ rest s) (hvalue.symm ▸ hlt)] at hstep
        have hnext : BitVec.ofNat 2 (a + 1) = BitVec.ofNat 2 a + 1 := BitVec.ofNat_add a 1
        have hrun := ih (s := readTaken (BitVec.ofNat 2 a) rest s) hr hsensor hlt rfl hr' (Nat.mod_eq_of_lt (by omega))
        rw [hnext] at hrun
        exact ((hrun.afterCall hcall).step hstep).mono (by omega)
      case isFalse hge =>
        cases h
        rw [onReadReply_lastTimeout n f (readTaken _ rest s) (hvalue.symm ▸ hge)] at hstep
        exact runsTo_of_step (by omega) hstep (Ended.afterCall hcall (ended_error (by decide) rfl))
    | error n f =>
      cases h
      exact runsTo_of_step (by omega) hstep (Ended.afterCall hcall (ended_error (by decide) rfl))
    | data len f =>
      rw [resultOfReads] at h
      split at h
      case isTrue hshort =>
        cases h
        rw [onReadReply_short f _ hshort] at hstep
        exact runsTo_of_step (by omega) hstep (Ended.afterCall hcall (ended_error (by decide) rfl))
      case isFalse hall =>
        rw [onReadReply_all f _ hall] at hstep
        obtain ⟨r', hr', hend⟩ := ended_judge (s := storeReply f (readTaken (BitVec.ofNat 2 a) rest s)) f hsensor rfl
        obtain rfl : afterCall .tRead r' = r := hr'.symm.trans (Option.some.inj h)
        have hparse := step_parse (s := storeReply f (readTaken (BitVec.ofNat 2 a) rest s)) hr rfl
        have hrun := runsTo_of_step (Nat.le_refl 1) hparse (hend.afterCall (hcall.storeReply f))
        exact (hrun.step hstep).mono (by omega)

/-! ### The write and the opening -/

/-- The `TWrite` of `f` with its reply taken, before the block works on the reply. -/
abbrev writeTaken (f : Frame) (rest : List WriteReply) (s : State) : State :=
  { transmit f s with writeReplies := rest }

theorem answered_write {s : State} {reply : WriteReply} {rest : List WriteReply} (f : Frame)
    (hq : s.writeReplies = reply :: rest) : Answered (.tWrite f) s (writeTaken f rest s) :=
  ⟨rfl, rfl, rfl, rfl, rfl, rfl, by rw [hq]; rfl, rfl⟩

theorem step_transmit {s : State} {reply : WriteReply} {rest : List WriteReply} (f : Frame) (hr : s.rst = false)
    (hq : s.writeReplies = reply :: rest) :
    step (transmit f s) = .next (onWriteReply reply (writeTaken f rest s)) := by
  rw [step_writeWait (s := transmit f s) hr rfl, writeDone_cons (s := transmit f s) hq]

theorem runsTo_write {f : Frame} {r : Result} {s : State} (hr : s.rst = false) (hsensor : isSensor s.cmdOp = true)
    (ha : s.attempt = 0) (h : resultOfWrite s.conn f s.writeReplies s.readReplies = some r) :
    RunsTo 5 s.cmdOp r s (transmit f s) := by
  cases hq : s.writeReplies with
  | nil => rw [hq] at h; cases h
  | cons reply rest =>
    rw [hq] at h
    have hcall := answered_write f hq
    have hstep := step_transmit f hr hq
    cases reply with
    | error n =>
      cases h
      exact runsTo_of_step (by decide) hstep (Ended.afterCall hcall (ended_error (by decide) ha))
    | count n =>
      rw [resultOfWrite] at h
      split at h
      case isTrue hshort =>
        cases h
        rw [onWriteReply_short _ hshort] at hstep
        exact runsTo_of_step (by decide) hstep (Ended.afterCall hcall (ended_error (by decide) ha))
      case isFalse hall =>
        obtain ⟨r', hr', rfl⟩ := Option.map_eq_some_iff.mp h
        rw [onWriteReply_all _ hall] at hstep
        have hrun := runsTo_reads (s := writeTaken f rest s) hr hsensor (by decide) rfl hr'
        exact (hrun.afterCall hcall).step hstep

/-- The `TOpen` with its reply taken, before the block works on the reply. -/
abbrev openTaken (rest : List Bool) (s : State) : State := { startOpen s with openReplies := rest }

theorem answered_open {s : State} {ready : Bool} {rest : List Bool} (hq : s.openReplies = ready :: rest) :
    Answered .tOpen s (openTaken rest s) :=
  ⟨rfl, rfl, rfl, rfl, rfl, by rw [hq]; rfl, rfl, rfl⟩

theorem Answered.withConn {c : Call} {s u : State} (h : Answered c s u) (conn : Conn) :
    Answered c s { u with conn := conn } :=
  { h with }

theorem step_startOpen {s : State} {ready : Bool} {rest : List Bool} (hr : s.rst = false)
    (hq : s.openReplies = ready :: rest) : step (startOpen s) = .next (onOpenReply ready (openTaken rest s)) := by
  rw [step_openWait (s := startOpen s) hr rfl, openDone_cons (s := startOpen s) hq]

theorem runsTo_open {r : Result} {s : State} (hr : s.rst = false) (hop : isSensor s.cmdOp = false)
    (ha : s.attempt = 0) (h : resultOfOpen s.conn s.openReplies = some r) :
    RunsTo 1 s.cmdOp r s (startOpen s) := by
  cases hq : s.openReplies with
  | nil => rw [hq] at h; cases h
  | cons ready rest =>
    rw [hq] at h
    have hcall := answered_open hq
    have hstep := step_startOpen hr hq
    cases ready with
    | true =>
      cases h
      exact runsTo_of_step (Nat.le_refl 1) hstep (Ended.afterCall (hcall.withConn .opened) (ended_ok hop ha))
    | false =>
      cases h
      exact runsTo_of_step (Nat.le_refl 1) hstep (Ended.afterCall hcall (ended_error (by decide) ha))

/-! ### The dispatch -/

theorem runsTo_sensor {r : Result} {s : State} (hr : s.rst = false) (hp : s.phase = .dispatch) (ha : s.attempt = 0)
    (hsensor : isSensor s.cmdOp = true)
    (h : resultOfSensor s.cfg s.conn s.cmdOp s.cmdArg s.writeReplies s.readReplies = some r) :
    RunsTo 6 s.cmdOp r s s := by
  have hstep := step_dispatch hr hp
  rw [dispatchOf_sensor hsensor] at hstep
  unfold resultOfSensor at h
  rcases sensorDispatch_cases s.cmdOp (argBits s.cfg.argW s.cmdArg) s with ⟨hb, hd⟩ | ⟨f, hb, hc, hd⟩ | ⟨f, hb, hc, hd⟩ <;>
    rw [hd] at hstep <;> rw [buildRequest, hb] at h
  · cases h
    exact runsTo_of_step (by decide) hstep (ended_error (by decide) ha)
  · simp only [hc, if_true] at h
    exact (runsTo_write hr hsensor ha (hc ▸ h)).step hstep
  · simp only [hc, if_false] at h
    cases h
    exact runsTo_of_step (by decide) hstep (ended_error (by decide) ha)

/-- Where the transport is asked to open, its reply decides (42_operations.md R125). -/
theorem resultOfConnect_of_mayReopen {s : State} (h : MayReopen s) (os : List Bool) :
    resultOfConnect s.cfg s.conn os = resultOfOpen s.conn os := by
  rcases h with hc | ⟨hc, hre⟩
  · rw [hc]; rfl
  · rw [hc, resultOfConnect, if_pos hre]

theorem runsTo_connect {r : Result} {s : State} (hr : s.rst = false) (hp : s.phase = .dispatch) (ha : s.attempt = 0)
    (hop : s.cmdOp = .connect) (h : resultOfConnect s.cfg s.conn s.openReplies = some r) :
    RunsTo 2 s.cmdOp r s s := by
  have hsensor : isSensor s.cmdOp = false := by rw [hop]; rfl
  have hstep := step_dispatch hr hp
  rw [hop, dispatchOf] at hstep
  rcases connectDispatch_cases s with ⟨hm, hd⟩ | ⟨hc, hd⟩ | ⟨hc, hno, hd⟩ <;> rw [hd] at hstep
  · rw [resultOfConnect_of_mayReopen hm] at h
    exact (runsTo_open hr hsensor ha h).step hstep
  · obtain rfl : ⟨s.conn, .ok, 0, none, []⟩ = r := by rw [hc] at h ⊢; exact Option.some.inj h
    exact runsTo_of_step (by decide) hstep (ended_ok hsensor ha)
  · obtain rfl : ⟨s.conn, .connectionError, 0, none, []⟩ = r := by
      rw [hc, resultOfConnect, hno] at h
      rw [hc]
      exact Option.some.inj h
    exact runsTo_of_step (by decide) hstep (ended_error (by decide) ha)

theorem answered_close (s : State) :
    Answered .tClose s { s with conn := .closed, calls := s.calls ++ [.tClose] } :=
  ⟨rfl, rfl, rfl, rfl, rfl, rfl, rfl, rfl⟩

theorem runsTo_close {s : State} (hr : s.rst = false) (hp : s.phase = .dispatch) (ha : s.attempt = 0)
    (hop : s.cmdOp = .close) : RunsTo 1 s.cmdOp (resultOfClose s.conn) s s := by
  have hsensor : isSensor s.cmdOp = false := by rw [hop]; rfl
  have hstep := step_dispatch hr hp
  rw [hop, dispatchOf] at hstep
  rcases closeDispatch_cases s with ⟨hc, hd⟩ | ⟨hc, hd⟩ <;> rw [hd] at hstep
  · rw [hc]
    exact runsTo_of_step (Nat.le_refl 1) hstep (Ended.afterCall (answered_close s) (ended_ok hsensor ha))
  · have hresult : resultOfClose s.conn = ⟨s.conn, .ok, 0, none, []⟩ := by
      cases hconn : s.conn with
      | opened => exact absurd hconn hc
      | unopened | closed => rfl
    rw [hresult]
    exact runsTo_of_step (Nat.le_refl 1) hstep (ended_ok hsensor ha)

/-- From `DISPATCH` every request whose calls are answered comes to the result of the big-step form. -/
theorem runsTo_dispatch {r : Result} {s : State} (hr : s.rst = false) (hp : s.phase = .dispatch) (ha : s.attempt = 0)
    (h : resultOf s.cfg s.conn s.cmdOp s.cmdArg s.openReplies s.writeReplies s.readReplies = some r) :
    RunsTo 6 s.cmdOp r s s := by
  cases hsensor : isSensor s.cmdOp with
  | true =>
    rw [resultOf_sensor hsensor] at h
    exact runsTo_sensor hr hp ha hsensor h
  | false =>
    cases hop : s.cmdOp <;> rw [hop] at h hsensor
    case connect => exact hop ▸ (runsTo_connect hr hp ha hop h).mono (by decide)
    case close =>
      cases h
      exact hop ▸ (runsTo_close hr hp ha hop).mono (by decide)
    case reserved7 =>
      cases h
      have hstep := step_dispatch hr hp
      rw [hop, dispatchOf, reservedDispatch, raise_eq_complete] at hstep
      exact hop ▸ runsTo_of_step (by decide) hstep (ended_error (by decide) ha)
    case readCo2 | zeroCal | spanCal | setAbc | setRange => cases hsensor

/-! ### The accept -/

theorem argBits_mod (argW : Nat) (arg : Arg) : argBits argW (arg % 2 ^ argW) = argBits argW arg :=
  BitVec.eq_of_toNat_eq (by rw [toNat_argBits, toNat_argBits, Nat.mod_mod])

/-- The big-step form reads the `ARG_W` bits of the argument only. -/
theorem resultOf_mod (cfg : Config) (conn : Conn) (op : Op) (arg : Arg) (os : List Bool) (ws : List WriteReply)
    (rs : List ReadReply) :
    resultOf cfg conn op (arg % 2 ^ cfg.argW) os ws rs = resultOf cfg conn op arg os ws rs := by
  have hbuild : buildRequest cfg op (arg % 2 ^ cfg.argW) = buildRequest cfg op arg := by
    rw [buildRequest, buildRequest, argBits_mod]
  cases hsensor : isSensor op with
  | true => rw [resultOf_sensor hsensor, resultOf_sensor hsensor, resultOfSensor, resultOfSensor, hbuild]
  | false =>
    cases op with
    | connect | close | reserved7 => rfl
    | readCo2 | zeroCal | spanCal | setAbc | setRange => cases hsensor

end Sys2Proof.Machine
end

section
/-! PROOF. The obligation that the block and the big-step form come to the same (41_transaction_engine.md R110, R112). -/

namespace Sys2Proof.Machine

/-- Settles O52: the accept latches the request, and from `DISPATCH` the request comes to its result. -/
theorem requestRunsToItsResult : Obligations.RequestRunsToItsResult := by
  intro s op arg rest r hr hp hq h
  obtain ⟨hlen, hattempts⟩ := resultOf_callsFit h
  have haccept := step_idle_cons hr hp hq
  rw [wordOp_requestWord, wordArg_requestWord] at haccept
  have hlatched : resultOf s.cfg s.conn op (accept op (arg % 2 ^ s.cfg.argW) s).cmdArg s.openReplies s.writeReplies
      s.readReplies = some r := by
    rw [accept_cmdArg, toNat_argBits, Nat.mod_mod, resultOf_mod, h]
  obtain ⟨k, t, hpos, hk, hrun, hend⟩ := runsTo_dispatch (s := accept op (arg % 2 ^ s.cfg.argW) s) hr rfl rfl hlatched
  refine ⟨k + 1, t, Nat.succ_le_succ hpos, Nat.succ_le_succ hk, (run_succ_of_next haccept k).trans hrun, hend.phase,
    hend.conn, hend.resValid, ?_, hend.cfg, hend.rst.trans hr, hend.calls, hlen, hend.completions, hend.record,
    hend.openReplies, hend.writeReplies, ?_⟩
  · rw [hend.requests, accept_requests, hq, List.tail_cons]
  · rw [hattempts]
    exact hend.readReplies

end Sys2Proof.Machine
end

section
/-! SUPPORT. The steps of the requests that are no sensor commands (42_operations.md R125 to R127), what they report, and
the course of a scoped form (R128). -/

namespace Sys2Proof.Machine

/-! ### The steps of `CONNECT`, `CLOSE` and the reserved request -/

theorem exec_connect_dispatch (arg : Arg) {s : State} (hp : s.phase = .dispatch) :
    exec (.connect arg) s = .next (connectDispatch s) :=
  congrArg Host.Outcome.next (requestStep_dispatch hp)

theorem exec_connect_openWait (arg : Arg) {s : State} (hp : s.phase = .openWait) :
    exec (.connect arg) s = .next (openDone s) :=
  congrArg Host.Outcome.next (requestStep_openWait hp)

theorem exec_close_dispatch (arg : Arg) {s : State} (hp : s.phase = .dispatch) :
    exec (.close arg) s = .next (closeDispatch s) :=
  congrArg Host.Outcome.next (requestStep_dispatch hp)

theorem exec_reserved7_dispatch (arg : Arg) {s : State} (hp : s.phase = .dispatch) :
    exec (.reserved7 arg) s = .next (endedWithout .invalidArgument s) :=
  congrArg Host.Outcome.next
    ((requestStep_dispatch hp).trans (complete_none_eq_endedWithout (.inl (by decide))))

theorem connectDispatch_mayReopen {s : State} (h : MayReopen s) : connectDispatch s = startOpen s := by
  rcases h with hc | ⟨hc, hre⟩
  · simp [connectDispatch, hc]
  · simp [connectDispatch, hc, hre]

theorem connectDispatch_opened {s : State} (hop : isSensor s.cmdOp = false) (hc : s.conn = .opened) :
    connectDispatch s = endedWithout .ok s := by
  rw [← complete_none_eq_endedWithout (.inr hop)]
  simp [connectDispatch, hc]

theorem connectDispatch_refused {s : State} (hc : s.conn = .closed) (hno : s.cfg.reopenAllowed = false) :
    connectDispatch s = endedWithout .connectionError s := by
  rw [← complete_none_eq_endedWithout (.inl (by decide))]
  simp [connectDispatch, hc, hno]

theorem openDone_ready {s : State} {rest : List Bool} (hop : isSensor s.cmdOp = false)
    (hq : s.openReplies = true :: rest) :
    openDone s = endedWithout .ok { s with openReplies := rest, conn := .opened } :=
  (openDone_cons hq).trans (complete_none_eq_endedWithout (.inr hop))

theorem openDone_notReady {s : State} {rest : List Bool} (hq : s.openReplies = false :: rest) :
    openDone s = endedWithout .connectionError { s with openReplies := rest } :=
  (openDone_cons hq).trans (complete_none_eq_endedWithout (.inl (by decide)))

theorem closeDispatch_opened {s : State} (hop : isSensor s.cmdOp = false) (hc : s.conn = .opened) :
    closeDispatch s = endedWithout .ok { s with conn := .closed, calls := s.calls ++ [.tClose] } := by
  rcases closeDispatch_cases s with ⟨-, h⟩ | ⟨hn, -⟩
  · exact h.trans (complete_none_eq_endedWithout (.inr hop))
  · exact absurd hc hn

theorem closeDispatch_not_opened {s : State} (hop : isSensor s.cmdOp = false) (hc : s.conn ≠ .opened) :
    closeDispatch s = endedWithout .ok s := by
  rcases closeDispatch_cases s with ⟨hopened, -⟩ | ⟨-, h⟩
  · exact absurd hopened hc
  · exact h.trans (complete_none_eq_endedWithout (.inr hop))

/-! ### What they report -/

/-- The result registers report no Response and no attempt (42_operations.md R125, *Flags*). -/
abbrev NothingReported (t : State) : Prop :=
  t.resRspValid = false ∧ t.resPpmValid = false ∧ t.resAttempts = 0

theorem nothingReported_complete {st : Status} {s : State} (hop : isSensor s.cmdOp = false) (ha : s.attempt = 0) :
    NothingReported (complete st none s) := by
  have hrsp : rspValidAfter st s.cmdOp = false := by simp [rspValidAfter, hop]
  exact ⟨hrsp, ppmValidAfter_of_not_rspValidAfter hrsp, ha⟩

/-! ### What every run keeps -/

/-- What every step keeps, every run keeps. -/
theorem run_keeps {P : State → Prop} (hP : ∀ s t : State, P s → step s = .next t → P t) {k : Nat} {s t : State}
    (hs : P s) (h : Host.Core.run Sys2Proof.core k s = .next t) : P t := by
  induction k generalizing s with
  | zero => exact Host.Outcome.next.inj h ▸ hs
  | succ k ih =>
    cases hstep : step s with
    | next s' =>
      rw [run_succ_of_next hstep] at h
      exact ih (hP s s' hs hstep) h
    | fault r => cases r
    | refused r =>
      have hrun : Host.Core.run Sys2Proof.core (k + 1) s = .refused r := by
        simp [Host.Core.run, show Sys2Proof.core.step s = .refused r from hstep]
      rw [hrun] at h
      cases h

/-! ### The scoped form -/

/-- The operations still to be ended, in order: that of the request in progress, then those on the port. -/
def opsAhead (s : State) : List Op :=
  (if s.phase = .idle then [] else [s.cmdOp]) ++ s.requests.map (wordOp s.cfg.argW)

theorem opsAhead_idle {s : State} (hp : s.phase = .idle) : opsAhead s = s.requests.map (wordOp s.cfg.argW) := by
  simp [opsAhead, hp]

theorem opsAhead_busy {s : State} (hp : s.phase ≠ .idle) :
    opsAhead s = s.cmdOp :: s.requests.map (wordOp s.cfg.argW) := by
  simp [opsAhead, hp]

/-- An accept takes the operation over from the port. -/
theorem opsAhead_accept {s : State} {w : ReqWord} {rest : List ReqWord} (arg : Arg) (hp : s.phase = .idle)
    (hq : s.requests = w :: rest) : opsAhead (accept (wordOp s.cfg.argW w) arg s) = opsAhead s := by
  rw [opsAhead_idle hp, opsAhead_busy (by simp), accept_cmdOp, accept_requests, accept_cfg, hq]
  rfl

theorem ne_close_of_isSensor {op : Op} (h : isSensor op = true) : op ≠ .close := by
  rintro rfl
  cases h

/-- In a scope (42_operations.md R128): the connection is open, the transport was told to close `n` times, and the one
`CLOSE` ahead is the last operation. `CLOSE` waits for no reply (R126), so a request that does is another one. -/
structure InScope (n : Nat) (s : State) : Prop where
  rst : s.rst = false
  conn : s.conn = .opened
  closes : closeCount s.calls = n
  waits : s.phase = .idle ∨ s.phase = .dispatch ∨ s.cmdOp ≠ .close
  ahead : ∃ body, opsAhead s = body ++ [.close] ∧ .close ∉ body

/-- The scope has been left, by one `TClose`, and nothing is to be done. -/
structure ScopeLeft (n : Nat) (s : State) : Prop where
  rst : s.rst = false
  conn : s.conn = .closed
  closes : closeCount s.calls = n + 1
  runOver : RunOver s

section
variable {n : Nat} {s t : State}

theorem InScope.accept {w : ReqWord} {rest : List ReqWord} (h : InScope n s) (arg : Arg) (hp : s.phase = .idle)
    (hq : s.requests = w :: rest) : InScope n (accept (wordOp s.cfg.argW w) arg s) where
  rst := h.rst
  conn := h.conn
  closes := h.closes
  waits := .inr (.inl rfl)
  ahead := by rw [opsAhead_accept arg hp hq]; exact h.ahead

/-- However a request of the body ends, the scope goes on with the rest of the body (41_transaction_engine.md R111). -/
theorem InScope.complete (h : InScope n s) (hp : s.phase ≠ .idle) (hop : s.cmdOp ≠ .close) (st : Status)
    (r : Option Response) : InScope n (complete st r s) where
  rst := h.rst
  conn := h.conn
  closes := h.closes
  waits := .inl rfl
  ahead := by
    obtain ⟨body, hahead, hbody⟩ := h.ahead
    rw [opsAhead_busy hp] at hahead
    rw [opsAhead_idle (complete_phase st r s)]
    cases body with
    | nil => exact absurd (List.cons.inj hahead).1 hop
    | cons op rest => exact ⟨rest, (List.cons.inj hahead).2, fun hmem => hbody (.tail op hmem)⟩

/-- A request of the body that does not end yet has its operation still ahead. -/
theorem InScope.goOn (h : InScope n s) (hop : t.cmdOp ≠ .close) (hrst : t.rst = s.rst) (hconn : t.conn = s.conn)
    (hcloses : closeCount t.calls = closeCount s.calls) (hahead : opsAhead t = opsAhead s) : InScope n t where
  rst := hrst.trans h.rst
  conn := hconn.trans h.conn
  closes := hcloses.trans h.closes
  waits := .inr (.inr hop)
  ahead := hahead ▸ h.ahead

/-- The `CLOSE` in progress is the one at the end of the scope, so no request is left behind it. -/
theorem InScope.requests_of_close (h : InScope n s) (hp : s.phase ≠ .idle) (hop : s.cmdOp = .close) :
    s.requests = [] := by
  obtain ⟨body, hahead, hbody⟩ := h.ahead
  rw [opsAhead_busy hp, hop] at hahead
  cases body with
  | nil => exact List.map_eq_nil_iff.mp (List.cons.inj hahead).2
  | cons op rest => exact absurd ((List.cons.inj hahead).1 ▸ List.mem_cons_self) hbody

theorem InScope.close (h : InScope n s) (hp : s.phase ≠ .idle) (hop : s.cmdOp = .close) :
    ScopeLeft n (Machine.complete .ok none { s with conn := .closed, calls := s.calls ++ [.tClose] }) where
  rst := h.rst
  conn := rfl
  closes := by simp [h.closes]
  runOver := ⟨rfl, h.requests_of_close hp hop, rfl⟩

theorem InScope.cmdOp_ne_close (h : InScope n s) (hi : s.phase ≠ .idle) (hd : s.phase ≠ .dispatch) :
    s.cmdOp ≠ .close :=
  (h.waits.resolve_left hi).resolve_left hd

/-- What comes after `DISPATCH` ends a request of the body. -/
theorem InScope.completeReply (h : InScope n s) (hi : s.phase ≠ .idle) (hd : s.phase ≠ .dispatch) (st : Status)
    (r : Option Response) : InScope n (Machine.complete st r s) :=
  h.complete hi (h.cmdOp_ne_close hi hd) st r

/-- A scope goes on until its `CLOSE` leaves it. -/
theorem InScope.step (h : InScope n s) (hstep : step s = .next t) : InScope n t ∨ ScopeLeft n t := by
  cases step_moves hstep with
  | reset hrst => simp [h.rst] at hrst
  | waitIdle | waitStuck => exact .inl h
  | accept w rest _ hp hq => exact .inl (h.accept _ hp hq)
  | startOpen _ _ _ hm => simp [MayReopen, h.conn] at hm
  | connectRefused _ _ _ hc => simp [h.conn] at hc
  | closedAlready _ _ _ hc => exact absurd h.conn hc
  | notConnected f _ _ _ _ hc => exact absurd h.conn hc
  | close _ hp hop => exact .inr (h.close (by simp [hp]) hop)
  | connected _ hp hop => exact .inl (h.complete (by simp [hp]) (by simp [hop]) _ _)
  | reserved _ hp hop => exact .inl (h.complete (by simp [hp]) (by simp [hop]) _ _)
  | badArgument _ hp hsensor => exact .inl (h.complete (by simp [hp]) (ne_close_of_isSensor hsensor) _ _)
  | transmit f _ hp hsensor =>
    exact .inl (h.goOn (ne_close_of_isSensor hsensor) rfl rfl (by simp) (by simp [opsAhead, hp]))
  | written _ _ _ hp | retry _ _ _ _ hp | received _ _ _ hp =>
    have hop : s.cmdOp ≠ .close := h.cmdOp_ne_close (by simp [hp]) (by simp [hp])
    exact .inl (h.goOn hop rfl rfl (by simp) (by simp [opsAhead, hp]))
  | opened rest _ hp =>
    have h' : InScope n { s with openReplies := rest, conn := .opened } := { h with conn := rfl }
    exact .inl (h'.completeReply (by simp [hp]) (by simp [hp]) _ _)
  | openFailed rest _ hp =>
    have h' : InScope n { s with openReplies := rest } := { h with }
    exact .inl (h'.completeReply (by simp [hp]) (by simp [hp]) _ _)
  | writeError _ rest _ hp | writeShort _ rest _ hp =>
    have h' : InScope n { s with writeReplies := rest } := { h with }
    exact .inl (h'.completeReply (by simp [hp]) (by simp [hp]) _ _)
  | readFailed _ _ rest _ hp | readError _ _ rest _ hp | readShort _ _ rest _ hp =>
    have h' : InScope n { s with readReplies := rest } := { h with }
    exact .inl (h'.completeReply (by simp [hp]) (by simp [hp]) _ _)
  | parsed _ _ hp | parseFailed _ _ hp =>
    exact .inl (h.completeReply (by simp [hp]) (by simp [hp]) _ _)

/-- A block whose scope has been left waits (60_exceptions.md R158). -/
theorem ScopeLeft.step (h : ScopeLeft n s) (hstep : step s = .next t) : ScopeLeft n t := by
  obtain ⟨hp, hq, -⟩ := h.runOver
  rw [step_idle_nil h.rst hp hq] at hstep
  exact Host.Outcome.next.inj hstep ▸ h

theorem InScope.run {k : Nat} (h : InScope n s) (hrun : Host.Core.run Sys2Proof.core k s = .next t) :
    InScope n t ∨ ScopeLeft n t := by
  refine run_keeps (P := fun s => InScope n s ∨ ScopeLeft n s) ?keeps (.inl h) hrun
  rintro s t (h | h) hstep
  · exact h.step hstep
  · exact .inr (h.step hstep)

/-- In a scope there is its `CLOSE` to come, so an idle block has a request on its port. -/
theorem InScope.requests_ne_nil (h : InScope n s) (hp : s.phase = .idle) : s.requests ≠ [] := by
  intro hq
  obtain ⟨body, hahead, -⟩ := h.ahead
  rw [opsAhead_idle hp, hq] at hahead
  exact List.cons_ne_nil _ _ (List.append_eq_nil_iff.mp hahead.symm).2

/-- A body without `CLOSE` and one `CLOSE` after it, on an idle open block, are a scope. -/
theorem inScope_start {body : List ReqWord} {arg : Arg} (hr : s.rst = false) (hp : s.phase = .idle)
    (hc : s.conn = .opened) (hq : s.requests = body ++ [requestWord s.cfg.argW .close arg])
    (hbody : ∀ w ∈ body, wordOp s.cfg.argW w ≠ .close) : InScope (closeCount s.calls) s where
  rst := hr
  conn := hc
  closes := rfl
  waits := .inl hp
  ahead := by
    refine ⟨body.map (wordOp s.cfg.argW), ?_, ?_⟩
    · simp [opsAhead_idle hp, hq]
    · intro hmem
      obtain ⟨w, hw, hop⟩ := List.mem_map.mp hmem
      exact hbody w hw hop

end

/-! ### The closing of the connection -/

/-- A connection that a step leaves as it was is not closed by it. -/
theorem not_closing_of_conn_eq {s t : State} (h : t.conn = s.conn) : ¬ (s.conn = .opened ∧ t.conn = .closed) := by
  rintro ⟨hs, ht⟩
  rw [h, hs] at ht
  cases ht

end Sys2Proof.Machine
end

section
/-! PROOF. The obligations about the requests that are no sensor commands and about the closing of the connection
(42_operations.md R125 to R128). -/

namespace Sys2Proof.Machine

/-- Settles O54: a scope is left by its `CLOSE` only, and until then an idle block has a request on its port. -/
theorem scopedFormClosesExactlyOnce : Obligations.ScopedFormClosesExactlyOnce := by
  intro s body arg k t hr hp hc hq hbody hrun hidle hnone
  rcases (inScope_start hr hp hc hq hbody).run hrun with h | h
  · exact absurd hnone (h.requests_ne_nil hidle)
  · exact ⟨h.closes, h.conn, h.runOver⟩

/-- Settles O46, move by move: `close` issues a `TClose` and closes. No other move issues one, and of these only the reset
and the opening set `CONN`, neither to `Closed`. -/
theorem closeCallIsTheClosing : Obligations.CloseCallIsTheClosing := by
  intro s t h
  cases step_moves h with
  | close hr hp hop hc => exact iff_of_true rfl ⟨hc, rfl⟩
  | reset | opened => exact iff_of_false (by simp) (by simp)
  | _ => exact iff_of_false (by simp) (not_closing_of_conn_eq rfl)

/-- Settles O30, by `CONN` and by the reply; a request that is still waiting is not in `IDLE`. -/
theorem connectRequest : Obligations.ConnectRequest := by
  intro arg s hop
  have hsensor : isSensor s.cmdOp = false := by rw [hop]; rfl
  refine ⟨fun hp hc => ?unopened, fun hp hc => ?opened, fun hp hc hre => ?reopens, fun hp hc hno => ?refused,
    fun rest hp hq => ?ready, fun rest hp hq => ?notReady, fun t hs hp h hidle => ?reports⟩
  case unopened => rw [exec_connect_dispatch arg hp, connectDispatch_mayReopen (.inl hc)]; rfl
  case opened => rw [exec_connect_dispatch arg hp, connectDispatch_opened hsensor hc]
  case reopens => rw [exec_connect_dispatch arg hp, connectDispatch_mayReopen (.inr ⟨hc, hre⟩)]; rfl
  case refused => rw [exec_connect_dispatch arg hp, connectDispatch_refused hc hno]
  case ready => rw [exec_connect_openWait arg hp, openDone_ready hsensor hq]
  case notReady => rw [exec_connect_openWait arg hp, openDone_notReady hq]
  case reports =>
    rcases hp with hp | hp
    · obtain ⟨hattempt, -⟩ := (blockInv_dispatch_iff hp).mp hs
      obtain rfl := Host.Outcome.next.inj ((exec_connect_dispatch arg hp).symm.trans h)
      rcases connectDispatch_cases s with ⟨-, hd⟩ | ⟨-, hd⟩ | ⟨-, -, hd⟩ <;> rw [hd] at hidle ⊢
      · cases hidle
      · exact nothingReported_complete hsensor hattempt
      · exact nothingReported_complete hsensor hattempt
    · obtain ⟨hattempt, -⟩ := (blockInv_openWait_iff hp).mp hs
      obtain rfl := Host.Outcome.next.inj ((exec_connect_openWait arg hp).symm.trans h)
      rcases openDone_cases s with ⟨-, hd⟩ | ⟨rest, -, hd⟩ | ⟨rest, -, hd⟩ <;> rw [hd] at hidle ⊢
      · rw [hp] at hidle; cases hidle
      · exact nothingReported_complete hsensor hattempt
      · exact nothingReported_complete hsensor hattempt

/-- Settles O31, by `CONN`. -/
theorem closeRequest : Obligations.CloseRequest := by
  intro arg s hop hp
  have hsensor : isSensor s.cmdOp = false := by rw [hop]; rfl
  rw [exec_close_dispatch arg hp]
  refine ⟨fun hc => ?opened, fun hc => ?closed, fun hc => ?unopened, fun t hs h => ?reports⟩
  case opened => rw [closeDispatch_opened hsensor hc]
  case closed => rw [closeDispatch_not_opened hsensor (by simp [hc])]
  case unopened => rw [closeDispatch_not_opened hsensor (by simp [hc])]
  case reports =>
    obtain ⟨hattempt, -⟩ := (blockInv_dispatch_iff hp).mp hs
    obtain rfl := Host.Outcome.next.inj h
    rcases closeDispatch_cases s with ⟨-, hd⟩ | ⟨-, hd⟩ <;> rw [hd]
    all_goals exact ⟨rfl, rfl, nothingReported_complete hsensor hattempt⟩

/-- Settles O32: the dispatch of the reserved request does not read `CONN` or the argument. -/
theorem reservedRequest : Obligations.ReservedRequest := by
  intro arg s hp
  refine ⟨exec_reserved7_dispatch arg hp, fun t hs h => ?_⟩
  obtain ⟨hattempt, -⟩ := (blockInv_dispatch_iff hp).mp hs
  obtain rfl := Host.Outcome.next.inj ((exec_reserved7_dispatch arg hp).symm.trans h)
  exact ⟨rfl, rfl, rfl, rfl, hattempt⟩

end Sys2Proof.Machine
end

section
/-! SUPPORT. What a request with an error leaves (60_exceptions.md R152), the argument check that decides it (R146), a
read that times out (R145), and the families of the status codes (R150). -/

namespace Sys2Proof.Machine

/-! ### The argument check -/

/-- The check of `SPAN_CAL`, as the bound on the whole argument (40_frame_codec.md R88). -/
theorem argOk_spanCal {n : Nat} (cfg : Config) (arg : BitVec n) :
    argOk cfg .spanCal arg = decide (arg.toNat ≤ 65535) := rfl

/-- The bound of `SPAN_CAL` and membership in `RANGE_SET` are all that the argument check asks. -/
theorem argOk_of_bounds {n : Nat} {cfg : Config} {op : Op} {arg : BitVec n}
    (hspan : op = .spanCal → arg.toNat ≤ 65535) (hrange : op = .setRange → ∃ r ∈ cfg.rangeSet, r.toNat = arg.toNat) :
    argOk cfg op arg = true := by
  cases op with
  | spanCal => exact decide_eq_true (hspan rfl)
  | setRange => exact (argOk_setRange_iff cfg arg).mpr (hrange rfl)
  | connect | close | readCo2 | zeroCal | setAbc | reserved7 => rfl

/-- 65536 can be presented as an argument at every legal `ARG_W` (00_scope.md R4). -/
theorem lt_two_pow_of_legal {cfg : Config} (h : cfg.Legal) : 65536 < 2 ^ cfg.argW :=
  calc 65536 < 2 ^ 17 := by decide
    _ ≤ 2 ^ cfg.argW := Nat.pow_le_pow_right (by decide) h

/-! ### Error completions -/

/-- A step that ends a request with an error takes replies off the channels and raises the error, and does no more. -/
theorem step_error {s t : State} (hr : s.rst = false) (hp : s.phase ≠ .idle) (h : step s = .next t)
    (hidle : t.phase = .idle) (hst : t.resStatus ≠ .ok) :
    ∃ os ws rs, t = endedWithout t.resStatus { s with openReplies := os, writeReplies := ws, readReplies := rs } := by
  cases step_moves h with
  | reset hrst => simp [hr] at hrst
  | waitIdle | waitStuck => exact absurd hidle hp
  | accept | startOpen | transmit | written | retry | received => simp at hidle
  | connected | close | closedAlready | opened | parsed => exact absurd rfl hst
  | connectRefused | reserved | badArgument | notConnected | openFailed | writeError | writeShort | readFailed
  | readError | readShort | parseFailed => exact ⟨_, _, _, complete_none_eq_endedWithout (.inl hst)⟩

/-! ### Timeouts -/

/-- A timeout before the third attempt is one step to the next attempt. -/
theorem run_timeout_retry {s : State} {n : BitVec 4} {f : Frame} {rest : List ReadReply} {a : BitVec 2} (k : Nat)
    (hr : s.rst = false) (hp : s.phase = .readWait) (hq : s.readReplies = .timeout n f :: rest) (ha : s.attempt = a)
    (hlt : a.toNat < 3) :
    Host.Core.run Sys2Proof.core (k + 1) s =
      Host.Core.run Sys2Proof.core k (startRead (a + 1) { s with readReplies := rest }) := by
  subst ha
  refine run_succ_of_next ?_ k
  rw [step_readWait hr hp, readDone_cons hq, onReadReply_retry n f { s with readReplies := rest } hlt]

/-- A timeout of the third attempt is one step to the end of the request. -/
theorem run_timeout_last {s : State} {n : BitVec 4} {f : Frame} {rest : List ReadReply} (hr : s.rst = false)
    (hp : s.phase = .readWait) (hq : s.readReplies = .timeout n f :: rest) (ha : s.attempt = 3) :
    Host.Core.run Sys2Proof.core 1 s = .next (endedWithout .readFailed { s with readReplies := rest }) := by
  refine run_succ_of_next ?_ 0
  rw [step_readWait hr hp, readDone_cons hq,
    onReadReply_lastTimeout n f { s with readReplies := rest } (by simp [ha]),
    complete_none_eq_endedWithout (.inl (by decide))]

/-! ### The codes of the statuses -/

/-- The status with a code (60_exceptions.md R140); the codes from 10 on have none, and give `OK`. -/
def statusOfCode (c : Nat) : Status :=
  match c with
  | 1 => .invalidHeader
  | 2 => .checksumMismatch
  | 3 => .incompleteResponse
  | 4 => .partialWrite
  | 5 => .readFailed
  | 6 => .invalidArgument
  | 7 => .notConnected
  | 8 => .connectionError
  | 9 => .transportError
  | _ => .ok

theorem statusOfCode_statusCode (a : Status) : statusOfCode (statusCode a).toNat = a := by cases a <;> rfl

theorem statusCode_lt (a : Status) : (statusCode a).toNat < 10 := by cases a <;> decide

/-- The family as a function of the code (60_exceptions.md R150). -/
def familyOfCode (c : Nat) : Option Family :=
  if c = 0 then none else if c = 6 then some .argument else some .protocol

theorem statusFamily_eq_familyOfCode (a : Status) : statusFamily a = familyOfCode (statusCode a).toNat := by
  cases a <;> rfl

theorem familyOfCode_eq_none_iff (c : Nat) : familyOfCode c = none ↔ c = 0 := by
  unfold familyOfCode
  split_ifs <;> simp [*]

theorem familyOfCode_eq_argument_iff (c : Nat) : familyOfCode c = some .argument ↔ c = 6 := by
  unfold familyOfCode
  split_ifs <;> simp [*]

theorem familyOfCode_eq_protocol_iff (c : Nat) : familyOfCode c = some .protocol ↔ c ≠ 0 ∧ c ≠ 6 := by
  unfold familyOfCode
  split_ifs <;> simp [*]

end Sys2Proof.Machine
end

section
/-! PROOF. The obligations about errors (60_exceptions.md): commands turned away, error completions, timeouts, the idle
block, the status codes. -/

namespace Sys2Proof.Machine

/-- Settles O34: the argument check comes before the connection (log 16), so the first two parts do not read `CONN`. -/
theorem sensorCommandTurnedAway : Obligations.SensorCommandTurnedAway := by
  refine ⟨fun op arg s hsensor hp harg => ?_, fun cfg hlegal => decide_eq_true (lt_two_pow_of_legal hlegal)⟩
  have hvalue : (argBits s.cfg.argW arg).toNat = arg := (toNat_argBits _ _).trans (Nat.mod_eq_of_lt harg)
  rw [exec_sensor_dispatch hsensor hp]
  refine ⟨fun hop hbig => ?tooLarge, fun hop hout => ?outOfSet, fun hspan hrange hc => ?notConnected⟩
  case tooLarge =>
    subst hop
    rw [sensorDispatch_invalidArgument (by rw [argOk_spanCal, hvalue, decide_eq_false (Nat.not_le.mpr hbig)])]
  case outOfSet =>
    subst hop
    have hbad : argOk s.cfg .setRange (argBits s.cfg.argW arg) = false := by
      rw [Bool.eq_false_iff, ne_eq, argOk_setRange_iff, hvalue]
      rintro ⟨r, hmem, hr⟩
      exact hout r hmem hr
    rw [sensorDispatch_invalidArgument hbad]
  case notConnected =>
    rw [sensorDispatch_notConnected hc hsensor (argOk_of_bounds (by rwa [hvalue]) (by rwa [hvalue]))]

/-- Settles O49: beside the replies taken, the step is what `endedWithout` writes out. -/
theorem errorCompletionLeavesTheRest : Obligations.ErrorCompletionLeavesTheRest := by
  intro s t hr hp h hidle hst
  obtain ⟨os, ws, rs, ht⟩ := step_error hr hp h hidle hst
  rw [ht]
  exact ⟨rfl, rfl, rfl, rfl, rfl, rfl, rfl, rfl, rfl, rfl, rfl, rfl, rfl, rfl⟩

/-- Settles O51: attempts 1 and 2 are read again, attempt 3 is the last. -/
theorem threeTimeoutsEndInReadFailed : Obligations.ThreeTimeoutsEndInReadFailed := by
  intro s n1 n2 n3 f1 f2 f3 rest hr hp ha hq
  calc Host.Core.run Sys2Proof.core 3 s
    _ = Host.Core.run Sys2Proof.core 2
          (startRead 2 { s with readReplies := .timeout n2 f2 :: .timeout n3 f3 :: rest }) :=
        run_timeout_retry (a := 1) 2 hr hp hq ha (by decide)
    _ = Host.Core.run Sys2Proof.core 1 (startRead 3 (readTaken 2 (.timeout n3 f3 :: rest) s)) :=
        run_timeout_retry (a := 2) 1 hr rfl rfl rfl (by decide)
    _ = .next (endedWithout .readFailed (readTaken 3 rest (readTaken 2 (.timeout n3 f3 :: rest) s))) :=
        run_timeout_last hr rfl rfl rfl
    _ = _ := by simp [endedWithout, startRead, issue]

/-- Settles O8: with nothing on the port the step changes nothing, and so no run does. -/
theorem idleBlockKeepsAllState : Obligations.IdleBlockKeepsAllState := fun _ k hr hp hq =>
  run_of_fixed (step_idle_nil hr hp hq) k

/-- Settles O17: the code determines the status, and the family is a function of the code. -/
theorem statusCodesAndFamilies : Obligations.StatusCodesAndFamilies := by
  refine ⟨by decide, fun a b h => ?injective, statusCode_lt, fun a => ?none, fun a => ?argument, fun a => ?protocol⟩
  case injective => rw [← statusOfCode_statusCode a, h, statusOfCode_statusCode]
  case none => rw [statusFamily_eq_familyOfCode, familyOfCode_eq_none_iff]
  case argument => rw [statusFamily_eq_familyOfCode, familyOfCode_eq_argument_iff]
  case protocol =>
    have hlt := statusCode_lt a
    rw [statusFamily_eq_familyOfCode, familyOfCode_eq_protocol_iff]
    omega

end Sys2Proof.Machine
end

section
/-! SUPPORT. A call that is never answered (70_reset_and_hazards.md R181): the block that waits for its reply stays as it
is, and a request with such a call among its calls comes to no completion. -/

namespace Sys2Proof.Machine

/-! ### A wait phase without its reply -/

theorem ne_idle_of_inWait {s : State} (h : InWait s) : s.phase ≠ .idle := by
  rcases h with hp | hp | hp <;> simp [hp]

theorem step_openWait_nil {s : State} (hr : s.rst = false) (hp : s.phase = .openWait) (hq : s.openReplies = []) :
    step s = .next s := by
  rw [step_openWait hr hp, openDone_nil hq]

theorem step_writeWait_nil {s : State} (hr : s.rst = false) (hp : s.phase = .writeWait) (hq : s.writeReplies = []) :
    step s = .next s := by
  rw [step_writeWait hr hp, writeDone_nil hq]

theorem step_readWait_nil {s : State} (hr : s.rst = false) (hp : s.phase = .readWait) (hq : s.readReplies = []) :
    step s = .next s := by
  rw [step_readWait hr hp, readDone_nil hq]

/-- With `RST` low, the block that waits for a reply which is not there keeps all state. -/
theorem step_stuck {s : State} (hr : s.rst = false) (h : Stuck s) : step s = .next s := by
  obtain ⟨hp | hp | hp, hno⟩ := h
  · exact step_openWait_nil hr hp (by simpa [ReplyWaits, hp] using hno)
  · exact step_writeWait_nil hr hp (by simpa [ReplyWaits, hp] using hno)
  · exact step_readWait_nil hr hp (by simpa [ReplyWaits, hp] using hno)

/-! ### Where the big-step form has no result -/

theorem resultOfOpen_eq_none_iff (conn : Conn) (os : List Bool) : resultOfOpen conn os = none ↔ os = [] := by
  cases os with
  | nil => simp [resultOfOpen]
  | cons ready rest => cases ready <;> simp [resultOfOpen]

/-- The reads have no result where the next reply is missing, or where it is a timeout that is retried and the reads after
it have none. -/
theorem resultOfReads_eq_none_iff (conn : Conn) (a : Nat) (rs : List ReadReply) :
    resultOfReads conn a rs = none ↔
      rs = [] ∨ ∃ n f rest, rs = .timeout n f :: rest ∧ a < 3 ∧ resultOfReads conn (a + 1) rest = none := by
  cases rs with
  | nil => simp [resultOfReads]
  | cons reply rest =>
    cases reply with
    | timeout n f => by_cases ha : a < 3 <;> simp [resultOfReads, ha]
    | error n f => simp [resultOfReads]
    | data len f => by_cases hn : len.val < 9 <;> simp [resultOfReads, hn]

/-- The write has no result where its reply is missing, or where all nine bytes are taken and the reads have none. -/
theorem resultOfWrite_eq_none_iff (conn : Conn) (f : Frame) (ws : List WriteReply) (rs : List ReadReply) :
    resultOfWrite conn f ws rs = none ↔
      ws = [] ∨ ∃ n rest, ws = .count n :: rest ∧ ¬ n.val < 9 ∧ resultOfReads conn 1 rs = none := by
  cases ws with
  | nil => simp [resultOfWrite]
  | cons reply rest =>
    cases reply with
    | error n => simp [resultOfWrite]
    | count n =>
      by_cases hn : n.val < 9
      · simp [resultOfWrite, hn]
      · simp [resultOfWrite, hn, not_lt.mp hn]

theorem resultOfSensor_eq_none_iff (cfg : Config) (conn : Conn) (op : Op) (arg : Arg) (ws : List WriteReply)
    (rs : List ReadReply) :
    resultOfSensor cfg conn op arg ws rs = none ↔
      ∃ f, buildRequest cfg op arg = some f ∧ conn = .opened ∧ resultOfWrite conn f ws rs = none := by
  unfold resultOfSensor
  cases buildRequest cfg op arg with
  | none => simp
  | some f => by_cases hc : conn = .opened <;> simp [hc]

/-- `CONNECT` has no result only where the transport is asked to open and does not answer. -/
theorem resultOfConnect_eq_none_iff (s : State) (os : List Bool) :
    resultOfConnect s.cfg s.conn os = none ↔ MayReopen s ∧ os = [] := by
  by_cases hm : MayReopen s
  · rw [resultOfConnect_of_mayReopen hm, resultOfOpen_eq_none_iff]
    simp [hm]
  · cases hc : s.conn with
    | unopened => exact absurd (.inl hc) hm
    | opened => simp [resultOfConnect, MayReopen, hc]
    | closed =>
      cases hre : s.cfg.reopenAllowed with
      | true => exact absurd (.inr ⟨hc, hre⟩) hm
      | false => simp [resultOfConnect, MayReopen, hc, hre]

/-! ### A request in progress with a call that is never answered -/

/-- The request in progress makes, now or later, a call whose reply is not among those that wait: in each phase, what is
left of the big-step form has no result. -/
inductive Unanswered (s : State) : Prop where
  | dispatch : s.phase = .dispatch →
      resultOf s.cfg s.conn s.cmdOp s.cmdArg s.openReplies s.writeReplies s.readReplies = none → Unanswered s
  | opening : s.phase = .openWait → s.openReplies = [] → Unanswered s
  | writing : s.phase = .writeWait → resultOfWrite s.conn s.txbuf s.writeReplies s.readReplies = none → Unanswered s
  | reading : s.phase = .readWait → resultOfReads s.conn s.attempt.toNat s.readReplies = none → Unanswered s

/-- With `RST` low, such a request is in progress and nothing beyond the completions `cs` has been emitted. -/
structure NeverCompletes (cs : List Completion) (s : State) : Prop where
  rst : s.rst = false
  completions : s.completions = cs
  unanswered : Unanswered s

/-- The `DISPATCH` step of such a request asks the transport to open or hands it a frame. -/
theorem NeverCompletes.dispatch {cs : List Completion} {s : State} (h : NeverCompletes cs s)
    (hresult : resultOf s.cfg s.conn s.cmdOp s.cmdArg s.openReplies s.writeReplies s.readReplies = none) :
    NeverCompletes cs (dispatchOf s.cmdOp s.cmdArg s) := by
  cases hsensor : isSensor s.cmdOp with
  | true =>
    rw [resultOf_sensor hsensor, resultOfSensor_eq_none_iff] at hresult
    obtain ⟨f, hbuild, hc, hwrite⟩ := hresult
    rw [dispatchOf_sensor hsensor, sensorDispatch_opened hc hbuild]
    exact ⟨h.rst, h.completions, .writing rfl hwrite⟩
  | false =>
    cases hop : s.cmdOp <;> rw [hop] at hresult hsensor
    case connect =>
      obtain ⟨hm, hq⟩ := (resultOfConnect_eq_none_iff s s.openReplies).mp hresult
      rw [dispatchOf, connectDispatch_mayReopen hm]
      exact ⟨h.rst, h.completions, .opening rfl hq⟩
    case close | reserved7 => cases hresult
    case readCo2 | zeroCal | spanCal | setAbc | setRange => cases hsensor

/-- Every step of such a request leaves it without a completion: it waits, or goes on to a later call. -/
theorem NeverCompletes.step {cs : List Completion} {s t : State} (h : NeverCompletes cs s) (hstep : step s = .next t) :
    NeverCompletes cs t := by
  have of_eq {u : State} (hu : Machine.step s = .next u) (hn : NeverCompletes cs u) : NeverCompletes cs t :=
    Host.Outcome.next.inj (hu.symm.trans hstep) ▸ hn
  cases h.unanswered with
  | dispatch hp hresult => exact of_eq (step_dispatch h.rst hp) (h.dispatch hresult)
  | opening hp hq => exact of_eq (step_openWait_nil h.rst hp hq) h
  | writing hp hresult =>
    rcases (resultOfWrite_eq_none_iff _ _ _ _).mp hresult with hq | ⟨n, rest, hq, hall, hreads⟩
    · exact of_eq (step_writeWait_nil h.rst hp hq) h
    · refine of_eq (step_writeWait h.rst hp) ?_
      rw [writeDone_cons hq, onWriteReply_all _ hall]
      exact ⟨h.rst, h.completions, .reading rfl hreads⟩
  | reading hp hresult =>
    rcases (resultOfReads_eq_none_iff _ _ _).mp hresult with hq | ⟨n, f, rest, hq, hlt, hreads⟩
    · exact of_eq (step_readWait_nil h.rst hp hq) h
    · refine of_eq (step_readWait h.rst hp) ?_
      have hnext : (s.attempt + 1).toNat = s.attempt.toNat + 1 := by bv_omega
      rw [readDone_cons hq, onReadReply_retry n f { s with readReplies := rest } hlt]
      exact ⟨h.rst, h.completions, .reading rfl (hnext ▸ hreads)⟩

/-- The accept of a request with an unanswered call latches it so. -/
theorem neverCompletes_accept {s : State} {op : Op} {arg : Arg} (hr : s.rst = false)
    (h : resultOf s.cfg s.conn op arg s.openReplies s.writeReplies s.readReplies = none) :
    NeverCompletes s.completions (accept op arg s) := by
  refine ⟨hr, rfl, .dispatch rfl ?_⟩
  rw [accept_cmdArg, toNat_argBits]
  exact (resultOf_mod ..).trans h

end Sys2Proof.Machine
end

section
/-! PROOF. The obligations about `RST` and about calls that are never answered (70_reset_and_hazards.md R170 to R172,
R181). -/

namespace Sys2Proof.Machine

/-- Settles O53: the accept latches a request with an unanswered call, and no step of it completes it. -/
theorem unansweredRequestNeverCompletes : Obligations.UnansweredRequestNeverCompletes := by
  intro s op arg rest hr hp hq h k t hrun
  cases k with
  | zero => rw [← Host.Outcome.next.inj hrun]
  | succ k =>
    have haccept := step_idle_cons hr hp hq
    rw [wordOp_requestWord, wordArg_requestWord] at haccept
    rw [run_succ_of_next haccept] at hrun
    have hstart : NeverCompletes s.completions (accept op (arg % 2 ^ s.cfg.argW) s) :=
      neverCompletes_accept hr ((resultOf_mod ..).trans h)
    exact (run_keeps (fun _ _ hu hstep => hu.step hstep) hstart hrun).completions

/-- Settles O9: a stuck block is at a fixed point of the step; `RST` is taken in every phase. -/
theorem unansweredCallHoldsBlock : Obligations.UnansweredCallHoldsBlock := by
  intro s hr hstuck
  have hbusy : s.phase ≠ .idle := ne_idle_of_inWait hstuck.1
  exact ⟨run_of_fixed (step_stuck hr hstuck), beq_eq_false_iff_ne.mpr hbusy, takeReset (assertRst s), step_of_rst rfl,
    rfl, rfl⟩

/-- Settles O5: the step that takes `RST` writes the four registers of 10_state.md R25 and drops the outstanding reply. -/
theorem resetInputTakesResetState : Obligations.ResetInputTakesResetState := fun s hr =>
  ⟨takeReset s, step_of_rst hr, takeReset_conn s, takeReset_phase s, takeReset_attempt s, takeReset_resValid s,
    takeReset_calls s, takeReset_completions s, takeReset_requests s, takeReset_cfg s, takeReset_openReplies s,
    takeReset_writeReplies s, takeReset_readReplies s⟩

end Sys2Proof.Machine
end
